-- ==== Sys2Proof/Word.lean ====
section
/-! DEFINITION. The words of the part: bytes, station addresses, block and segment numbers, masks. -/

namespace Sys2Proof

/-- Eight bits: one byte of the array, of a line payload or of a host frame. -/
abbrev Byte := BitVec 8

/-- A station address, 7 bits in the claim field (R71). Legal addresses are 1 to 126. -/
abbrev Addr := BitVec 7

/-- A block number of a slot, 0 to 255 (R5). -/
abbrev Block := Fin 256

/-- A segment index of a block, 0 to 15 (R1). -/
abbrev Seg := Fin 16

/-- A segment mask: bit `i` stands for segment `i` (R212). -/
abbrev Mask := BitVec 16

/-- The byte an erased cell reads (R4). -/
abbrev erasedByte : Byte := 0xFF

end Sys2Proof
end

