-- ==== Sys2Proof/Machine/Flags.lean ====
section
/-! DEFINITION. The three check codes (R214 to R216) and the byte order of multi-byte fields. -/

namespace Sys2Proof.Machine

/-- The bits of a byte, most significant first (R214). -/
def msbFirst (b : Byte) : List Bool := [b.getLsbD 7, b.getLsbD 6, b.getLsbD 5, b.getLsbD 4, b.getLsbD 3, b.getLsbD 2, b.getLsbD 1, b.getLsbD 0]

/-- The bits of a byte, least significant first (R215). -/
def lsbFirst (b : Byte) : List Bool := [b.getLsbD 0, b.getLsbD 1, b.getLsbD 2, b.getLsbD 3, b.getLsbD 4, b.getLsbD 5, b.getLsbD 6, b.getLsbD 7]

/-- The fold of a sequence into a register, which is a number again after every element: the plain fold (the lemma
`strictFold_eq`), in a form that the kernel can run over a whole unit. -/
def strictFold {w : Nat} {α : Type} (f : BitVec w → α → BitVec w) (r : BitVec w) : List α → BitVec w
  | [] => r
  | x :: xs =>
    match (f r x).toNat with
    | 0 => strictFold f 0 xs
    | n + 1 => strictFold f (BitVec.ofNat w (n + 1)) xs

/-- One bit into the CRC-16 register (R214). -/
def crc16Bit (r : BitVec 16) (b : Bool) : BitVec 16 :=
  if b != r.getLsbD 15 then (r <<< 1) ^^^ 0x1021 else r <<< 1

/-- CRC-16 over a sequence of bits (R214). -/
def crc16 (bits : List Bool) : BitVec 16 := strictFold crc16Bit 0xFFFF bits

/-- One bit into the CRC-32 register (R215). -/
def crc32Bit (r : BitVec 32) (b : Bool) : BitVec 32 :=
  if b != r.getLsbD 0 then (r >>> 1) ^^^ 0xEDB88320 else r >>> 1

/-- Bytes fed into a running CRC-32 register, without complement (R215). -/
def crc32Feed (r : BitVec 32) (bytes : List Byte) : BitVec 32 :=
  strictFold (fun r b => strictFold crc32Bit r (lsbFirst b)) r bytes

/-- CRC-32 of a byte sequence (R215). -/
def crc32 (bytes : List Byte) : BitVec 32 := ~~~ crc32Feed 0xFFFFFFFF bytes

/-- One left shift of the CRC-8 register (R216). -/
def crc8Shift (r : Byte) : Byte := if r.getLsbD 7 then (r <<< 1) ^^^ 0x07 else r <<< 1

/-- One byte into the CRC-8 register (R216). -/
def crc8Byte (r b : Byte) : Byte :=
  crc8Shift (crc8Shift (crc8Shift (crc8Shift (crc8Shift (crc8Shift (crc8Shift (crc8Shift (r ^^^ b))))))))

/-- CRC-8 of a byte sequence (R216). -/
def crc8 (bytes : List Byte) : Byte := strictFold crc8Byte 0 bytes

/-- A 16-bit field, most significant byte first. -/
def bytes16 (v : BitVec 16) : List Byte := [v.extractLsb' 8 8, v.extractLsb' 0 8]

/-- A 32-bit field, most significant byte first. -/
def bytes32 (v : BitVec 32) : List Byte :=
  [v.extractLsb' 24 8, v.extractLsb' 16 8, v.extractLsb' 8 8, v.extractLsb' 0 8]

/-- The byte at an offset of a layout. -/
def byteAt (l : List Byte) (i : Nat) : Byte := l.getD i 0

/-- The 16-bit field at an offset. -/
def field16 (l : List Byte) (i : Nat) : BitVec 16 := byteAt l i ++ byteAt l (i + 1)

/-- The 32-bit field at an offset. -/
def field32 (l : List Byte) (i : Nat) : BitVec 32 :=
  byteAt l i ++ byteAt l (i + 1) ++ byteAt l (i + 2) ++ byteAt l (i + 3)

/-- A flag byte of 01h or 00h (R218). -/
def flagByte (b : Bool) : Byte := if b then 1 else 0

/-- A flag byte with one flag in bit 0 and one in bit 1 (R212, R218). -/
def flagPair (bit0 bit1 : Bool) : Byte := flagByte bit0 ||| (flagByte bit1 <<< 1)

end Sys2Proof.Machine
end

