-- ==== Sys2Proof/Config.lean ====
section
/-! DEFINITION. What each part fixes and the manual leaves open: free values, constants with no body. -/

namespace Sys2Proof.Config

/-- The silicon revision byte programmed into C0 at manufacture, before the limit of R6 (assumption log 2). -/
opaque revisionByte : Byte

/-- The serial number programmed into C0 at manufacture, unique to each part (R6; assumption log 2). -/
opaque serialNumber : BitVec 32

/-- The silicon revision: 01h or above (R6). -/
def revision : Byte := if revisionByte = 0 then 1 else revisionByte

end Sys2Proof.Config
end

