-- ==== Sys2Proof/Syntax.lean ====
section
/-! DEFINITION. The commands of the part: one constructor for each row of spec/opcode_table.json, with the
operands that come from outside the part (pins, bytes on a port or the line, and what the silicon of the array does). -/

namespace Sys2Proof

/-- An image key: family, version and digest (Conventions, R41). -/
structure Key where
  family : BitVec 16
  version : BitVec 16
  digest : BitVec 32
deriving DecidableEq, Repr

/-- The none form of a key: 8 bytes of 00h (R72, R212). -/
def Key.noneForm : Key := { family := 0, version := 0, digest := 0 }

/-- The strap inputs: ADDR0 to ADDR6, RATE1 RATE0, SERVE (R193). -/
structure Straps where
  address : Addr
  rate : BitVec 2
  serve : Bool
deriving DecidableEq, Repr

/-- What an array operation leaves in the bytes it acts on; a property of the silicon, so an operand (R2, R3, R40). -/
inductive Left where
  /-- The content the operation should leave: all FFh after an erase (R2), the expected content after a program (R3). -/
  | expected
  /-- A worn unit: the given bytes, from the first byte of the unit an erase acts on or of the segment a program acts on;
  bytes beyond the list are as expected. -/
  | worn (content : List Byte)
  /-- An operation cut short. A program: each bit of the segment that the pattern would clear keeps its previous value
  where `keep` holds 1 and reads 0 where it holds 0, and every other bit is unchanged. An erase: the bytes of `keep` (R40). -/
  | cut (keep : List Byte)
deriving DecidableEq, Repr

/-- What an operation that may be the last of WIPE leaves, and the strap pins at its end, which the device reset that
follows the last one samples (R193, R210). -/
structure LastLeft where
  content : Left
  straps : Straps
deriving DecidableEq, Repr

/-- The parameter bytes of a command frame, and the number of complete bytes clocked after its check byte before HCS# goes
high, which the port disregards (R151, R154). -/
structure Params where
  bytes : List Byte
  extra : Nat
deriving DecidableEq, Repr

/-- The causes of a device reset that come from outside the part (R192). RESTART and the end of WIPE are inside
the commands that bring them. -/
inductive ResetCause where
  /-- Power comes on, with the RESET# pin at the level given (true: low). -/
  | powerOn (resetLow : Bool)
  /-- RESET# goes low. -/
  | resetLow
deriving DecidableEq, Repr

/-- The payload fields of a NOTICE frame, as a receiver reads them at their offsets (R212). -/
structure NoticeFrame where
  active : Key
  staging : Key
  code : Byte
  map : BitVec 32
  flags : Byte
deriving DecidableEq, Repr

/-- The commands. Host commands carry the parameter bytes of their frame (R154, R217). -/
inductive Instr where
  /-- DEVICE_RESET (R192): a device reset from power-on or RESET# low, the strap pins then, and what a job cut short leaves. -/
  | deviceReset (cause : ResetCause) (pins : Straps) (left : Left)
  /-- POWER_LOSS (R40): power goes, and the job in service is cut short. -/
  | powerLoss (left : Left)
  /-- START_UP_READS_END (R194). -/
  | startUpReadsEnd
  /-- ERASE_ATTEMPT (R26, R37): an erase attempt and its blank check end; what the erase left in the unit. -/
  | eraseAttempt (left : Left)
  /-- SPARE_ENTRY_PROGRAM (R27): a spare map entry program and its read-back end. -/
  | spareEntryProgram (left : Left)
  /-- PROGRAM_SEGMENT (R30, R31): a segment program and its read-back end. -/
  | programSegment (left : Left)
  /-- VERIFY_BLOCK (R32). -/
  | verifyBlock
  /-- READ_SEGMENT (R33). -/
  | readSegment
  /-- READ_RANGE (R34). -/
  | readRange
  /-- CHECK_BLOCK (R34). -/
  | checkBlock
  /-- SET_MARK (R35): a mark program and its read-back end. -/
  | setMark (left : Left)
  /-- APPEND_RECORD (R36): a record append and its read-back end; the strap pins then, which the device reset that ends
  WIPE samples (R193, R210). -/
  | appendRecord (left : LastLeft)
  /-- OVERTIME (R19): the array operation in progress reaches its overtime limit; what it leaves when stopped, and
  the strap pins then, as for APPEND_RECORD. -/
  | overtime (left : LastLeft)
  /-- LINE_IDLE (R78). -/
  | lineIdle
  /-- CONTENTION_LOST (R73). -/
  | contentionLost
  /-- BIT_ERROR (R74). -/
  | bitError
  /-- ATTEMPT_END (R76): the echo slot is read; whether it read dominant. -/
  | attemptEnd (echoed : Bool)
  /-- FRAME_DISCARDED (R80): the bits read from the start bit on, inserted bits among them (true: recessive), and whether
  the delimiter read dominant. -/
  | frameDiscarded (bits : List Bool) (dominantDelimiter : Bool)
  /-- CLASH (R81). -/
  | clash
  /-- RELEASE_RECEIVED (R103): source address, key, block count byte. -/
  | releaseReceived (src : Addr) (key : Key) (count : Byte)
  /-- OFFER_RECEIVED (R115, R142): source address, key, block, segment mask. -/
  | offerReceived (src : Addr) (key : Key) (block : Block) (mask : Mask)
  /-- ASK_RECEIVED (R135): source address, target address byte, key, block, segment mask. -/
  | askReceived (src : Addr) (target : Byte) (key : Key) (block : Block) (mask : Mask)
  /-- SEGMENT_RECEIVED (R118): source address, key, block, segment index byte, data bytes. -/
  | segmentReceived (src : Addr) (key : Key) (block : Block) (index : Byte) (data : List Byte)
  /-- NOTICE_RECEIVED (R98): source address and payload. -/
  | noticeReceived (src : Addr) (notice : NoticeFrame)
  /-- JOIN_TIMER (R86). -/
  | joinTimer
  /-- LISTEN_ONLY_TIMER (R87). -/
  | listenOnlyTimer
  /-- PERIODIC_TIMER (R92, item 1). -/
  | periodicTimer
  /-- SPACING_TIMER (R92, item 3). -/
  | spacingTimer
  /-- PEER_AGED_OUT (R97): the address of the peer whose last-heard age reaches 6,000 ms. -/
  | peerAgedOut (addr : Addr)
  /-- CLAIM_WINDOW (R114): the context whose claim window expires. -/
  | claimWindow (ctx : Fin 4)
  /-- SILENCE_TIMER (R123): the context whose silence timer expires. -/
  | silenceTimer (ctx : Fin 4)
  /-- DEFERRAL_TIMER (R127): the oldest deferral entry's timer expires. -/
  | deferralTimer
  /-- SERVE_DELAY (R139): the delay timer of the oldest WAITING serve entry expires. -/
  | serveDelay
  /-- TRANSACTION_BEGIN (R152): HCS# falls. -/
  | transactionBegin
  /-- ANSWER_READ (R160): a transaction whose byte 0 is F0h ends; its number of complete bytes. -/
  | answerRead (bytes : Nat)
  /-- BAD_FRAME (R156): a command transaction ends; the complete bytes clocked in. -/
  | badFrame (bytes : List Byte)
  /-- FRAME_IGNORED (R155): a command transaction ends in TAKEN; the complete bytes clocked in. -/
  | frameIgnored (bytes : List Byte)
  /-- ID (R168). -/
  | idReport (params : Params)
  /-- IDENT (R169). -/
  | ident (params : Params)
  /-- STAT (R170). -/
  | stat (params : Params)
  /-- SLOTS (R171). -/
  | slots (params : Params)
  /-- BLOCKS (R172). -/
  | blocks (params : Params)
  /-- PEERS (R173). -/
  | peers (params : Params)
  /-- EVENT (R174). -/
  | event (params : Params)
  /-- READ (R175). -/
  | read (params : Params)
  /-- CHECKSUM (R176). -/
  | checksum (params : Params)
  /-- ACCEPT (R178). -/
  | accept (params : Params)
  /-- FLOOR (R179). -/
  | floor (params : Params)
  /-- LOAD BEGIN (R181). -/
  | loadBegin (params : Params)
  /-- LOAD DATA (R182). -/
  | loadData (params : Params)
  /-- LOAD END (R184). -/
  | loadEnd (params : Params)
  /-- LOAD ABORT (R187). -/
  | loadAbort (params : Params)
  /-- PUBLISH (R188). -/
  | publish (params : Params)
  /-- HOLD (R189). -/
  | hold (params : Params)
  /-- RESUME (R189). -/
  | resume (params : Params)
  /-- WIPE (R190). -/
  | wipe (params : Params)
  /-- RESTART (R191): the parameter bytes, the strap pins at the reset, and what a job cut short leaves. -/
  | restart (params : Params) (pins : Straps) (left : Left)
  /-- START_UP_BEGINS (R192): RESET# is high and power is present; the strap pins then. -/
  | startUpBegins (pins : Straps)
  /-- HCS_HIGH_AFTER_RESET (R151). -/
  | hcsHighAfterReset
deriving DecidableEq, Repr

end Sys2Proof
end

