-- ==== Sys2Proof/Machine/State.lean ====
section
/-! DEFINITION. The state of the part as plain data, one record for each block of the block diagram, and its value
right after a device reset. -/

namespace Sys2Proof.Machine

/-! ## Faults and refusals -/

/-- Reasons for a fault. The part has none: every array access a job can make lies in the 526 units (R1), and every
failure the manual names (overtime, read-back mismatch, a worn unit) has a result the part goes on from. -/
inductive Fault where
deriving DecidableEq, Repr

/-- Reasons for a refusal. All but the first say that the command names an event that cannot take place in the state
(the manual gives it no effect, because it does not happen). Each is safe: the model stops where the part never is.
Assumption log 3. -/
inductive Refusal where
  /-- The command has no meaning yet; raised by exec's refused arms only. Safe. -/
  | notModelled (mnemonic : String)
  /-- The flash job or array operation whose end the command reports is not in service. Safe. -/
  | noSuchJob
  /-- The timer whose expiry the command reports is not running. Safe. -/
  | timerNotRunning
  /-- No entry of the transmit queue is on the line. Safe. -/
  | nothingOnLine
  /-- An entry of the transmit queue is on the line, so the line is not idle for this station. Safe. -/
  | lineBusy
  /-- The peer table holds no entry with the address. Safe. -/
  | noSuchPeer
  /-- The operands contradict what the command says of them: a discarded frame whose bits are a good frame, a bad
  command frame without a fault, an ignored frame outside TAKEN, a spare entry left reading FREE (R40). Safe. -/
  | notAsReported
  /-- The start-up is not at the point the command needs. Safe. -/
  | wrongPhase
  /-- The HCS# pin already has the level the command brings it to. Safe. -/
  | pinUnchanged
deriving DecidableEq, Repr

/-! ## Small types -/

/-- The physical slots (R5). -/
inductive Slot where
  | a | b
deriving DecidableEq, Repr

/-- The roles (R42). -/
inductive Role where
  | active | staging
deriving DecidableEq, Repr

/-- The control units (R1). -/
inductive ControlUnit where
  | c0 | c1 | c2 | c3 | c4 | c5
deriving DecidableEq, Repr

/-- The commit units (R12). -/
inductive CommitUnit where
  | c2 | c3
deriving DecidableEq, Repr

/-- The outgoing segment buffers (R134). -/
inductive OutBufId where
  | ob0 | ob1
deriving DecidableEq, Repr

/-- The staging role of a commit record (R10). -/
inductive StagingRole where
  | none | fetching | retired | declined
deriving DecidableEq, Repr

/-- The states of the active slot (R43). -/
inductive ActiveState where
  | none | present | damaged
deriving DecidableEq, Repr

/-- The states of the staging slot (R44). -/
inductive StagingState where
  | empty | fetching | complete | retired | declined | loading | reclaiming | switching
deriving DecidableEq, Repr

/-- The states of a block (R45). -/
inductive BlockState where
  | unused | unknown | erasing | blank | filling | verifying | verified | dead
deriving DecidableEq, Repr

/-- The states of the link (R84). -/
inductive LinkState where
  | offline | joining | active | listenOnly | clash
deriving DecidableEq, Repr

/-- The three readings of the node part of C0 (R7). -/
inductive NodeReading where
  | blank | configured | spoiled
deriving DecidableEq, Repr

/-! ## Pins and start-up unit -/

/-- The input pins whose level the part reads outside a transaction: power, RESET#, the straps. -/
structure Pins where
  power : Bool
  resetLow : Bool
  straps : Straps
deriving DecidableEq, Repr

/-- How far the start-up is: held in reset, the start-up reads, the rebuild, RUNNING (R192, R205). -/
inductive Stage where
  | held | reading | rebuilding | running
deriving DecidableEq, Repr

/-- The rebuild progress (R192): nothing awaited, a re-verify that waits for room in the record work list (R201), the
slot role and block whose re-verify is awaited, or only repair marks outstanding. -/
inductive Rebuild where
  | idle
  | due (role : Role) (block : Block)
  | awaiting (role : Role) (block : Block)
  | repairs
deriving DecidableEq, Repr

/-- The vendor part of C0 as it reads, and whether its check matched (R6). -/
structure VendorPart where
  vendor : BitVec 16
  part : BitVec 16
  revision : Byte
  serial : BitVec 32
  matched : Bool
deriving DecidableEq, Repr

/-- The start-up unit (R192, R193, R194) and what it read at the last device reset. -/
structure StartUp where
  stage : Stage
  /-- The straps as sampled at the last device reset (R193). -/
  straps : Straps
  /-- The configuration fault: ADDRESS, FAMILY (R192, R194). -/
  faultAddress : Bool
  faultFamily : Bool
  vendor : VendorPart
  reading : NodeReading
  /-- The family in force; none while unconfigured (R7). -/
  family : Option (BitVec 16)
  /-- The first 32 bytes of C4 and C5 as the start-up reads found them (R14, R199). -/
  marksA : List Byte
  marksB : List Byte
  rebuild : Rebuild
  /-- The repair marks outstanding (R201). -/
  repairs : Nat
deriving DecidableEq, Repr

/-! ## Flash sequencer -/

/-- The requester of an erase, program or verify job (R18). The WIPE procedure's jobs carry the wipe mark (R25). -/
inductive Requester where
  | fetch (ctx : Fin 4)
  | host
  | startUp
  | wipe
deriving DecidableEq, Repr

/-- The expected value of a verify: a check value for a data block, the image key for block 0 (R32). -/
inductive Expected where
  | check (value : BitVec 32)
  | manifest (key : Key)
deriving DecidableEq, Repr

/-- The further inputs of a LOAD END verify: the running image check and the leading-byte count (R185). -/
structure ImageFeed where
  running : BitVec 32
  leading : Nat
deriving DecidableEq, Repr

/-- A commit record (R10). It serves as the recorded view as well (R49). -/
structure CommitRecord where
  seq : BitVec 32
  active : Option Slot
  activeKey : Option Key
  stagingKey : Option Key
  role : StagingRole
  declined : BitVec 16
  floor : BitVec 16
deriving DecidableEq, Repr

/-- The 64 bytes of an append: a record, or the 00h bytes with which WIPE voids a position (R210). -/
inductive RecordContent where
  | record (r : CommitRecord)
  | voided
deriving DecidableEq, Repr

/-- The jobs of the flash sequencer (R18). -/
inductive Job where
  | eraseUnit (req : Requester) (slot : Slot) (block : Block)
  | programSegment (req : Requester) (slot : Slot) (block : Block) (seg : Seg) (pattern : List Byte)
  | programNode (family : BitVec 16)
  | verifyBlock (req : Requester) (slot : Slot) (block : Block) (want : Expected) (feed : Option ImageFeed)
  | readSegment (slot : Slot) (block : Block) (seg : Seg) (buf : OutBufId)
  | readRange (role : Role) (block : Block) (offset length : Nat)
  | checkBlock (role : Role) (block : Block)
  | setMark (slot : Slot) (block : Block)
  | appendRecord (unit : CommitUnit) (position : Nat) (content : RecordContent)
  | eraseControl (unit : ControlUnit)
deriving DecidableEq, Repr

/-- The array operation of the job in service: an erase attempt after the given number of failed attempts on the unit
(R26), the program of a spare map entry (R27), the job's own program, verify or read, or the pending return of
PROTECTED (R25). -/
inductive Op where
  | erase (failed : Nat)
  | entry (position : Fin 8)
  | main
  | protectedReturn
deriving DecidableEq, Repr

/-- What the catalogue answers at the take of READ RANGE or CHECK BLOCK (R34): slot, key version, expected value and
whether the block may be read. -/
structure Resolved where
  slot : Slot
  version : BitVec 16
  want : Expected
  readable : Bool
deriving DecidableEq, Repr

/-- The job in service (R20). An orphan's context was released while it was in service (R131). -/
structure Service where
  job : Job
  op : Op
  orphan : Bool
  resolved : Option Resolved
deriving DecidableEq, Repr

/-- The state of a spare map position in the working copy (R24). -/
inductive SparePos where
  | free
  | valid (slot : Slot) (block : Block)
  | void
deriving DecidableEq, Repr

/-- The queue the arbiter's turn names (R22). -/
inductive Turn where
  | serve | host
deriving DecidableEq, Repr

/-- The flash sequencer (R20 to R24, R39). -/
structure Sequencer where
  recordQ : List Job
  fetchQ : List Job
  serveQ : List Job
  hostQ : List Job
  service : Option Service
  /-- The fetch-run count, 0 to 4 (R23). -/
  fetchRun : Nat
  turn : Turn
  spares : Vector SparePos 8
deriving DecidableEq, Repr

/-! ## Image catalogue -/

/-- A slot record (R42). The verified and dead counts are the numbers of blocks in those states (R45). -/
structure SlotRecord where
  key : Option Key
  count : Option Nat
  checks : List (BitVec 32)
  blocks : Vector BlockState 256
deriving DecidableEq, Repr

/-- Where the WIPE procedure stands (R208 to R210): waiting for a record job in service at its start, erasing control
unit `i` of four, erasing a slot block, appending its record, voiding position `j` of 64. -/
inductive WipeStep where
  | drain
  | control (i : Nat)
  | block (slot : Slot) (block : Block)
  | record
  | void (j : Nat)
deriving DecidableEq, Repr

/-- The open record procedure (R50). A switch remembers whether it is a revert (R63). -/
inductive Procedure where
  | none
  | reclaim
  | switch (revert : Bool)
  | floor
  | loadBegin
  | loadEnd
  | wipe (step : WipeStep) (failed : Bool)
deriving DecidableEq, Repr

/-- The image catalogue (R42, R49, R50, R54, R57). -/
structure Catalogue where
  slotA : SlotRecord
  slotB : SlotRecord
  /-- The role assignment: the slot whose role is ACTIVE. -/
  activeSlot : Slot
  activeState : ActiveState
  stagingState : StagingState
  recorded : CommitRecord
  commitUnit : CommitUnit
  /-- The next position of the current commit unit; 32 when the unit is full (R12). -/
  nextPos : Nat
  highSeq : BitVec 32
  /-- The numbers of positions of C2 and of C3 that were not ERASED when the start-up reads classed them (R11; that they stay so
  until the next device reset is DEDUCED, assumption log 33). -/
  usedC2 : Nat
  usedC3 : Nat
  /-- The record work list (R50). -/
  work : List Job
  frozen : Bool
  /-- The pending target and its source address (R57). -/
  target : Option (Key × Addr)
  procedure : Procedure
deriving DecidableEq, Repr

/-! ## Line controller -/

/-- The frames this station sends, by class (R72). -/
inductive Frame where
  | release (key : Key) (count : Byte)
  | offer (key : Key) (block : Block) (mask : Mask)
  | ask (target : Addr) (key : Key) (block : Block) (mask : Mask)
  | segment (key : Key) (block : Block) (seg : Seg) (data : List Byte)
  | notice (content : NoticeFrame)
deriving DecidableEq, Repr

/-- The producer of a transmit queue entry (R77). -/
inductive Owner where
  | noticeUnit
  | catalogue
  | fetch (ctx : Fin 4)
  | serveOffer
  | serveBuffer (buf : OutBufId)
deriving DecidableEq, Repr

/-- A transmit queue entry (R77); the list order is the submission order. `live` is false once its producer has given
it up while it was on the line (R105, R147). -/
structure TxEntry where
  frame : Frame
  owner : Owner
  attempts : Nat
  onLine : Bool
  live : Bool
deriving DecidableEq, Repr

/-- The LISTEN-ONLY timer (R87): stopped, running with the time left in ms, held by WIPE. -/
inductive ListenTimer where
  | stopped
  | running (left : Nat)
  | held
deriving DecidableEq, Repr

/-- The line controller (chapter The Distribution Line, its table of state). -/
structure LineController where
  link : LinkState
  idleCount : Nat
  queue : List TxEntry
  echoMiss : Nat
  /-- The join timer: the time left until its next request, in ms (R86). -/
  joinLeft : Option Nat
  listen : ListenTimer
  framesSent : Nat
  unechoed : Nat
  receiveErrors : Nat
  /-- This station drove the echo slot of the last frame it received dominant (R75; the model's record of the pin). -/
  echoDriven : Bool
deriving DecidableEq, Repr

/-! ## Peer table and notice unit -/

/-- The notice part of a peer entry (R95). -/
structure NoticePart where
  active : Option Key
  staging : Option Key
  code : Byte
  map : BitVec 32
  servePermitted : Bool
  linkActive : Bool
deriving DecidableEq, Repr

/-- A peer table entry (R95). -/
structure Peer where
  addr : Addr
  /-- The last-heard age, in whole ms. -/
  heard : Nat
  /-- The frames of other stations delivered since the last one from this peer: the model's record of which of two frames of one
  millisecond ended first (R96, assumption log 22). -/
  laterFrames : Nat
  part : Option NoticePart
  tally : Nat
  asked : Nat
deriving DecidableEq, Repr

/-- The peer table and notice unit (R92, R94, R95). -/
structure NoticeUnit where
  peers : List Peer
  /-- The spacing timer: ms since the last ACCEPTED submission, held at 2,000; none while stopped. -/
  spacing : Option Nat
  /-- The periodic timer: ms left; none while stopped. -/
  periodicLeft : Option Nat
  changed : Bool
  owed : Bool
  /-- The copy of the content last ACCEPTED. -/
  last : Option NoticeFrame
deriving DecidableEq, Repr

/-! ## Fetch engine and segment pool -/

/-- The states of a fetch context (R106). -/
inductive CtxState where
  | idle | preparing | asking | claiming | receiving | settling | verifying
deriving DecidableEq, Repr

/-- The one flash job of a context (R105). -/
inductive CtxJob where
  | none | erase | program | verify
deriving DecidableEq, Repr

/-- A fetch context (R105). -/
structure Ctx where
  state : CtxState
  block : Block
  key : Key
  wanted : Mask
  programmed : Mask
  buffers : List (Seg × List Byte)
  server : Option Addr
  endIndex : Option Seg
  tries : Nat
  job : CtxJob
  /-- Target of the last ASK submission; 0 is any holder. -/
  asked : Addr
  askQueued : Bool
  /-- The claim window and the silence timer: ms left. -/
  claimLeft : Nat
  silenceLeft : Nat
deriving DecidableEq, Repr

/-- A context with every field cleared (R105, R132). -/
def Ctx.cleared : Ctx :=
  { state := .idle, block := 0, key := Key.noneForm, wanted := 0, programmed := 0, buffers := [], server := none,
    endIndex := none, tries := 0, job := .none, asked := 0, askQueued := false, claimLeft := 0, silenceLeft := 0 }

/-- A deferral list entry: block and ms left (R127). -/
structure Deferral where
  block : Block
  left : Nat
deriving DecidableEq, Repr

/-- The fetch engine and the segment pool (R105, R117, R127, R128, R132). -/
structure FetchEngine where
  ctxs : Vector Ctx 4
  /-- Free pool buffers, and buffers held for a program in flight whose context has been released (R117). -/
  poolFree : Nat
  poolInFlight : Nat
  deferral : List Deferral
  hold : Bool
  overrun : Nat
deriving DecidableEq, Repr

/-! ## Serve engine -/

/-- The states of a serve entry (R133). -/
inductive ServeState where
  | waiting | offering | sending
deriving DecidableEq, Repr

/-- A serve queue entry (R133). -/
structure ServeEntry where
  key : Key
  block : Block
  mask : Mask
  state : ServeState
  /-- The delay timer: ms left. -/
  delayLeft : Nat
  offerQueued : Bool
  offered : Mask
  /-- The next index, 0 to 16. -/
  nextIndex : Nat
deriving DecidableEq, Repr

/-- An outgoing segment buffer (R134). `live` is false once its entry has been cancelled (R147). -/
inductive OutBuf where
  | free
  | reading (key : Key) (block : Block) (seg : Seg) (live : Bool)
  | frame (key : Key) (block : Block) (seg : Seg) (data : List Byte) (live : Bool)
deriving DecidableEq, Repr

/-- The serve engine (R133, R134, R150). -/
structure ServeEngine where
  queue : List ServeEntry
  ob0 : OutBuf
  ob1 : OutBuf
  served : Nat
  refused : Nat
deriving DecidableEq, Repr

/-! ## Host port -/

/-- The port states (R157). -/
inductive PortState where
  | idle | taken | answered
deriving DecidableEq, Repr

/-- The result codes (R159). -/
inductive ResultCode where
  | ok | badFrame | badParam | notReady | refusedState | refusedFloor | badImage | superseded | worn
deriving DecidableEq, Repr

/-- The answer in the answer store (R159). Its length and check follow from these two. -/
structure Answer where
  result : ResultCode
  payload : List Byte
deriving DecidableEq, Repr

/-- The event kinds (R163). -/
inductive EventKind where
  | targetAdopted | stagingComplete | switched | blockDeferred | unitRetired | slotDead | linkChange
  | digestConflict | arrayFault | activeDamaged
deriving DecidableEq, Repr

/-- An event queue entry (R162); the details are the four bytes of R219. -/
structure EventEntry where
  kind : EventKind
  count : Nat
  first : BitVec 32
  last : BitVec 32
deriving DecidableEq, Repr

/-- The outcome of one CHECK BLOCK of a CHECKSUM (R176). -/
inductive CheckOutcome where
  | isMatch | mismatch | notVerified | readFault
deriving DecidableEq, Repr

/-- One block's line of a CHECKSUM answer (R177). -/
structure CheckLine where
  outcome : CheckOutcome
  version : BitVec 16
  crc : BitVec 32
deriving DecidableEq, Repr

/-- How far LOAD END is (R184, R185): the loaded key, block count, image length and image check of the copy, the running
image check, and the block whose verify is awaited. -/
structure LoadEndWork where
  key : Key
  count : Nat
  length : Nat
  image : BitVec 32
  running : BitVec 32
  at_ : Nat
deriving DecidableEq, Repr

/-- The command in progress (R157). -/
inductive Command where
  | idReport
  | stat
  | ident (family : BitVec 16)
  | read
  | checksum (role : Role) (first : Nat) (count : Nat) (done : List CheckLine)
  | accept
  | floor
  | loadBegin
  | loadData (block : Block) (seg : Seg) (data : List Byte)
  | loadEnd (work : LoadEndWork)
  | publish
  | wipe
deriving DecidableEq, Repr

/-- The load record (R180): the programmed mask of each block, and the captured segments of the block 0 copy. -/
structure LoadRecord where
  masks : Vector Mask 256
  copy : Vector (Option (List Byte)) 16
deriving DecidableEq, Repr

/-- The host port (R151, R152, R157, R159, R162, R165). -/
structure HostPort where
  state : PortState
  answer : Option Answer
  command : Option Command
  /-- HCS# is low. -/
  hcsLow : Bool
  /-- HCS# has been low since a device reset, so the port disregards the transaction (R151). -/
  disregard : Bool
  /-- The state code and event count captured when HCS# went low (R152). -/
  capState : PortState
  capEvents : Nat
  /-- The bytes clocked out on HDO in the last transaction that ended (the model's record of the pin). -/
  hdo : List Byte
  events : List EventEntry
  identSubmitted : Bool
  load : LoadRecord
deriving DecidableEq, Repr

/-! ## The part -/

/-- The whole state: the model's queue of waiting commands, the pins, the array, and the blocks. -/
structure State where
  pending : List Instr
  pins : Pins
  /-- The memory array (R1): the cells that differ from what an unlisted address reads as. -/
  mem : List Host.Cell
  startUp : StartUp
  flash : Sequencer
  cat : Catalogue
  line : LineController
  notice : NoticeUnit
  fetch : FetchEngine
  serve : ServeEngine
  port : HostPort
deriving DecidableEq, Repr

/-- A cleared slot record: no key, count or check list, every block UNKNOWN (R42, R43). -/
def SlotRecord.cleared : SlotRecord :=
  { key := none, count := none, checks := [], blocks := Vector.replicate 256 .unknown }

/-- The recorded view without a ruling record (R13). -/
def CommitRecord.cleared : CommitRecord :=
  { seq := 0, active := none, activeKey := none, stagingKey := none, role := .none, declined := 0, floor := 0 }

/-- The start-up unit after a device reset, with the straps as sampled (R192, R193). -/
def StartUp.reset (stage : Stage) (straps : Straps) : StartUp :=
  { stage := stage, straps := straps, faultAddress := false, faultFamily := false,
    vendor := { vendor := 0, part := 0, revision := 0, serial := 0, matched := false },
    reading := .blank, family := none, marksA := [], marksB := [], rebuild := .idle, repairs := 0 }

/-- The flash sequencer after a device reset (R39). R8 and R39 give the spare map only from the start-up reads on; until
then every position is held FREE (DESIGN CHOICE, assumption log 26). -/
def Sequencer.reset : Sequencer :=
  { recordQ := [], fetchQ := [], serveQ := [], hostQ := [], service := none, fetchRun := 0, turn := .serve,
    spares := Vector.replicate 8 .free }

/-- The catalogue after a device reset (R42, R50, R55, R57). R11, R12 and R49 give commit unit, next position, highest
sequence and the counts of used positions only from the start-up reads on; until then they are held at C2 and 0, and the
other fields as without a ruling record (DESIGN CHOICE, assumption log 26). -/
def Catalogue.reset : Catalogue :=
  { slotA := .cleared, slotB := .cleared, activeSlot := .b, activeState := .none, stagingState := .empty,
    recorded := .cleared, commitUnit := .c2, nextPos := 0, highSeq := 0, usedC2 := 0, usedC3 := 0, work := [],
    frozen := false, target := none, procedure := .none }

/-- The line controller after a device reset. No frame has been received, so none has been echoed (DESIGN CHOICE, assumption
log 26). -/
def LineController.reset : LineController :=
  { link := .offline, idleCount := 0, queue := [], echoMiss := 0, joinLeft := none, listen := .stopped,
    framesSent := 0, unechoed := 0, receiveErrors := 0, echoDriven := false }

/-- The peer table and notice unit after a device reset (R94, R95). -/
def NoticeUnit.reset : NoticeUnit :=
  { peers := [], spacing := none, periodicLeft := none, changed := false, owed := false, last := none }

/-- The fetch engine after a device reset (R132). -/
def FetchEngine.reset : FetchEngine :=
  { ctxs := Vector.replicate 4 .cleared, poolFree := 24, poolInFlight := 0, deferral := [], hold := false, overrun := 0 }

/-- The serve engine after a device reset (R150). -/
def ServeEngine.reset : ServeEngine :=
  { queue := [], ob0 := .free, ob1 := .free, served := 0, refused := 0 }

/-- The load record with every mask 0 and no segment captured (R180). -/
def LoadRecord.cleared : LoadRecord :=
  { masks := Vector.replicate 256 0, copy := Vector.replicate 16 none }

/-- The host port after a device reset, with the level of HCS# (R151, R165). -/
def HostPort.reset (hcsLow : Bool) : HostPort :=
  { state := .idle, answer := none, command := none, hcsLow := hcsLow, disregard := hcsLow, capState := .idle,
    capEvents := 0, hdo := [], events := [], identSubmitted := false, load := .cleared }

/-- The part after a device reset that leaves it at the given stage, with the given pins, array and level of HCS#. -/
def State.afterReset (stage : Stage) (pins : Pins) (mem : List Host.Cell) (hcsLow : Bool) : State :=
  { pending := [], pins := pins, mem := mem, startUp := .reset stage pins.straps, flash := .reset, cat := .reset,
    line := .reset, notice := .reset, fetch := .reset, serve := .reset, port := .reset hcsLow }

/-- The strap levels of the reset state (DESIGN CHOICE, assumption log 1). -/
def boardStraps : Straps := { address := 1, rate := 0, serve := false }

/-- The machine right after a device reset of a new part: power present, RESET# high, HCS# high, the straps sampled and
the start-up reads begun (R192, R193), the array as manufactured (no cell listed). -/
def State.reset : State :=
  .afterReset .reading { power := true, resetLow := false, straps := boardStraps } [] false

end Sys2Proof.Machine
end

