-- ==== Sys2Proof/Machine/Operands.lean ====
section
/-! DEFINITION. The layouts of keys, records, manifests, line payloads and answers, and the codes used in them
(chapters Memory Array and Control Units, The Distribution Line, Formats and Check Codes). -/

namespace Sys2Proof.Machine

/-! ## Keys -/

/-- The 8 bytes of a key (R212). -/
def keyBytes (k : Key) : List Byte := bytes16 k.family ++ bytes16 k.version ++ bytes32 k.digest

/-- The key at an offset (R212). -/
def keyAt (l : List Byte) (i : Nat) : Key :=
  { family := field16 l i, version := field16 l (i + 2), digest := field32 l (i + 4) }

/-- A key as sent: the none form when absent (R212). -/
def keySent (k : Option Key) : Key := k.getD Key.noneForm

/-- A key as received: absent in its none form (R212). -/
def keyRead (k : Key) : Option Key := if k = Key.noneForm then none else some k

/-- The version of a slot's key in an answer, 0 when it holds none (R167, R219). -/
def versionOf (k : Option Key) : BitVec 16 := (k.map Key.version).getD 0

/-- A family lies within 0001h to FFFEh (Conventions, R7, R11). -/
def legalFamily (f : BitVec 16) : Bool := f ≠ 0 && f ≠ 0xFFFF

/-! ## Codes -/

/-- Physical slot codes (R218). -/
def slotCode : Slot → Byte
  | .a => 1
  | .b => 2

/-- Role codes (R218). -/
def roleCode : Role → Byte
  | .active => 1
  | .staging => 2

/-- A role parameter: 01h ACTIVE, 02h STAGING, every other value a range fault (R167, R217). -/
def roleParam (b : Byte) : Option Role :=
  if b = 1 then some .active else if b = 2 then some .staging else none

/-- Active state codes (R218). -/
def activeCode : ActiveState → Byte
  | .none => 0x10
  | .present => 0x11
  | .damaged => 0x12

/-- Staging state codes (R91). -/
def stagingCode : StagingState → Byte
  | .empty => 0
  | .fetching => 1
  | .complete => 2
  | .retired => 3
  | .declined => 4
  | .loading => 5
  | .reclaiming => 6
  | .switching => 7

/-- Block state codes (R218). -/
def blockCode : BlockState → Byte
  | .unused => 0
  | .unknown => 1
  | .erasing => 2
  | .blank => 3
  | .filling => 4
  | .verifying => 5
  | .verified => 6
  | .dead => 7

/-- Link state codes (R218). -/
def linkCode : LinkState → Byte
  | .offline => 0
  | .joining => 1
  | .active => 2
  | .listenOnly => 3
  | .clash => 4

/-- Node part reading codes (R218). -/
def readingCode : NodeReading → Byte
  | .blank => 0
  | .configured => 1
  | .spoiled => 2

/-- Open record procedure codes (R218). SLOTS is never answered while WIPE is open, since the port stays TAKEN (R190). -/
def procedureCode : Procedure → Byte
  | .none => 0
  | .reclaim => 1
  | .switch _ => 2
  | .floor => 3
  | .loadBegin => 4
  | .loadEnd => 5
  | .wipe _ _ => 0

/-- Job kind codes (R218). -/
def jobCode : Job → Byte
  | .eraseUnit .. => 1
  | .programSegment .. => 2
  | .programNode _ => 2
  | .verifyBlock .. => 3
  | .readSegment .. => 4
  | .readRange .. => 5
  | .checkBlock .. => 6
  | .setMark .. => 7
  | .appendRecord .. => 8
  | .eraseControl _ => 9

/-- Port state codes (R217). -/
def portCode : PortState → Byte
  | .idle => 0xA0
  | .taken => 0xA1
  | .answered => 0xA2

/-- Result codes (R217). -/
def resultCode : ResultCode → Byte
  | .ok => 0
  | .badFrame => 1
  | .badParam => 2
  | .notReady => 3
  | .refusedState => 4
  | .refusedFloor => 5
  | .badImage => 6
  | .superseded => 7
  | .worn => 8

/-- Event kind codes (R219). -/
def eventCode : EventKind → Byte
  | .targetAdopted => 1
  | .stagingComplete => 2
  | .switched => 3
  | .blockDeferred => 4
  | .unitRetired => 5
  | .slotDead => 6
  | .linkChange => 7
  | .digestConflict => 8
  | .arrayFault => 9
  | .activeDamaged => 0x0A

/-- CHECKSUM outcome codes (R219). -/
def outcomeCode : CheckOutcome → Byte
  | .isMatch => 0
  | .mismatch => 1
  | .notVerified => 2
  | .readFault => 3

/-! ## Event details (R219) -/

/-- The detail of TARGET-ADOPTED, STAGING-COMPLETE and SWITCHED: the version in bytes 2 to 3. -/
def versionDetail (v : BitVec 16) : BitVec 32 := (0 : BitVec 16) ++ v

/-- A detail of one byte, in byte 3. -/
def byteDetail (b : Byte) : BitVec 32 := (0 : BitVec 24) ++ b

/-- The detail of UNIT-RETIRED: retired unit, spare unit. -/
def retiredDetail (unit spare : Nat) : BitVec 32 := BitVec.ofNat 16 unit ++ BitVec.ofNat 16 spare

/-- The detail of SLOT-DEAD: physical slot in byte 2, block in byte 3. -/
def deadDetail (x : Slot) (b : Block) : BitVec 32 := (0 : BitVec 16) ++ slotCode x ++ BitVec.ofNat 8 b.val

/-- The detail of ARRAY-FAULT: physical unit, 00h, job kind. -/
def faultDetail (unit : Nat) (kind : Byte) : BitVec 32 := BitVec.ofNat 16 unit ++ (0 : Byte) ++ kind

/-- An event entry of the EVENT answer: kind, count, first detail, last detail (R219). -/
def eventBytes (e : EventEntry) : List Byte :=
  [eventCode e.kind, BitVec.ofNat 8 e.count] ++ bytes32 e.first ++ bytes32 e.last

/-! ## Control unit contents -/

/-- The 13 bytes of the vendor part as manufactured (R6): the revision and serial number are free values. -/
def vendorBytes : List Byte :=
  let fields := bytes16 0x7A31 ++ bytes16 0x0430 ++ [Config.revision] ++ bytes32 Config.serialNumber
  fields ++ bytes32 (crc32 fields)

/-- The node part that IDENT programs: the family and its complement (R7, R31). -/
def nodeBytes (family : BitVec 16) : List Byte := bytes16 family ++ bytes16 (~~~ family)

/-- The reading of the four bytes of the node part (R7). -/
def nodeReading (four : List Byte) : NodeReading :=
  if four = [0xFF, 0xFF, 0xFF, 0xFF] then .blank
  else if field16 four 2 = ~~~ field16 four 0 && legalFamily (field16 four 0) then .configured
  else .spoiled

/-- The 8 bytes of a spare map entry (R8). -/
def spareEntryBytes (x : Slot) (b : Block) (p : Fin 8) : List Byte :=
  let four := [slotCode x, BitVec.ofNat 8 b.val, BitVec.ofNat 8 p.val, 0]
  four ++ bytes32 (crc32 four)

/-- The state of a spare map position from its 8 bytes (R8). -/
def spareReading (p : Nat) (eight : List Byte) : SparePos :=
  if eight = List.replicate 8 erasedByte then .free
  else if byteAt eight 2 = BitVec.ofNat 8 p && byteAt eight 3 = 0 && field32 eight 4 = crc32 (eight.take 4) then
    if byteAt eight 0 = 1 then .valid .a (byteAt eight 1).toFin
    else if byteAt eight 0 = 2 then .valid .b (byteAt eight 1).toFin
    else .void
  else .void

/-- Staging role codes (R10). -/
def stagingRoleCode : StagingRole → Byte
  | .none => 0
  | .fetching => 1
  | .retired => 2
  | .declined => 3

/-- The staging role of a code (R10). -/
def stagingRoleOf (b : Byte) : Option StagingRole :=
  if b = 0 then some .none else if b = 1 then some .fetching else if b = 2 then some .retired
  else if b = 3 then some .declined else none

/-- Active slot codes of a record: 00h none, 01h slot A, 02h slot B (R10). -/
def activeSlotCode : Option Slot → Byte
  | none => 0
  | some x => slotCode x

/-- The active slot of a code (R10). -/
def activeSlotOf (b : Byte) : Option (Option Slot) :=
  if b = 0 then some none else if b = 1 then some (some .a) else if b = 2 then some (some .b) else none

/-- The 60 bytes before the record check (R10, R213). -/
def recordBody (r : CommitRecord) : List Byte :=
  bytes32 r.seq ++ [activeSlotCode r.active, stagingRoleCode r.role] ++ keyBytes (keySent r.activeKey) ++
    keyBytes (keySent r.stagingKey) ++ bytes16 r.declined ++ bytes16 r.floor ++ List.replicate 34 0

/-- The 64 bytes of a commit record (R10). -/
def recordBytes (r : CommitRecord) : List Byte := recordBody r ++ bytes32 (crc32 (recordBody r))

/-- The 64 bytes an append writes (R36, R210). -/
def contentBytes : RecordContent → List Byte
  | .record r => recordBytes r
  | .voided => List.replicate 64 0

/-- A key of a record is legal when it is absent, or has a legal family and a version of 1 or more (R11, item 5). -/
def legalRecordKey : Option Key → Bool
  | none => true
  | some k => legalFamily k.family && k.version ≠ 0

/-- A record is well formed (R11, items 1 and 3 to 7). -/
def recordWellFormed (r : CommitRecord) : Bool :=
  r.seq ≠ 0 && r.seq ≠ 0xFFFFFFFF &&
  (r.activeKey.isSome == r.active.isSome) &&
  ((r.role != .none) == r.stagingKey.isSome) &&
  legalRecordKey r.activeKey && legalRecordKey r.stagingKey &&
  (match r.activeKey, r.stagingKey with
    | some k, some l => k.version ≠ l.version
    | _, _ => true) &&
  (r.floor.toNat ≤ (versionOf r.activeKey).toNat) && (r.active.isSome || r.floor = 0)

/-- The state of a record position (R11). -/
inductive RecordReading where
  | erased
  | valid (r : CommitRecord)
  | void
deriving DecidableEq, Repr

/-- The state of a record position from its 64 bytes (R11). -/
def recordReading (bytes : List Byte) : RecordReading :=
  if bytes = List.replicate 64 erasedByte then .erased
  else if field32 bytes 60 = crc32 (bytes.take 60) && (bytes.drop 26).take 34 = List.replicate 34 0 then
    match activeSlotOf (byteAt bytes 4), stagingRoleOf (byteAt bytes 5) with
    | some active, some role =>
      let r : CommitRecord :=
        { seq := field32 bytes 0, active := active, activeKey := keyRead (keyAt bytes 6),
          stagingKey := keyRead (keyAt bytes 14), role := role, declined := field16 bytes 22, floor := field16 bytes 24 }
      if recordWellFormed r then .valid r else .void
    | _, _ => .void
  else .void

/-! ## Manifests -/

/-- The fields of a manifest (R15, R213). -/
structure Manifest where
  family : BitVec 16
  version : BitVec 16
  count : Nat
  length : Nat
  checks : List (BitVec 32)
  image : BitVec 32
deriving DecidableEq, Repr

/-- The manifest bytes of a block 0 with block count `n`: 16 + 4n of them (R15). -/
def manifestLength (n : Nat) : Nat := 16 + 4 * n

/-- The fields of the manifest in a block 0; none when the block count is outside 1 to 255 (R17, condition 1; R213). -/
def manifestOf (content : List Byte) : Option Manifest :=
  let n := (field32 content 4).toNat
  if 1 ≤ n ∧ n ≤ 255 then
    some { family := field16 content 0, version := field16 content 2, count := n,
           length := (field32 content 8).toNat,
           checks := (List.range n).map (fun k => field32 content (12 + 4 * k)),
           image := field32 content (12 + 4 * n) }
  else none

/-- The image length suits the block count (R17, condition 3). -/
def legalImageLength (n len : Nat) : Bool := (n - 1) * 2048 + 1 ≤ len && len ≤ n * 2048

/-- The acceptance of the manifest in block 0 under a key (R17). -/
def acceptManifest (k : Key) (content : List Byte) : Option Manifest :=
  match manifestOf content with
  | none => none
  | some m =>
    if m.family = k.family && m.version = k.version && legalImageLength m.count m.length &&
        (content.drop (manifestLength m.count)).all (· = erasedByte) &&
        crc32 (content.take (manifestLength m.count)) = k.digest then some m
    else none

/-- Entry `k` of a check list (R15). -/
def checkEntry (checks : List (BitVec 32)) (k : Nat) : BitVec 32 := checks.getD (k - 1) 0

/-- The leading bytes of data block `k` that belong to the image (R185). -/
def leadingBytes (n len k : Nat) : Nat := if k < n then 2048 else len - 2048 * (n - 1)

/-! ## Line frames -/

/-- The class of a frame (R72). -/
def frameClass : Frame → Nat
  | .release .. => 0
  | .offer .. => 1
  | .ask .. => 2
  | .segment .. => 3
  | .notice _ => 4

/-- The payload length of a class (R72). -/
def classLength : Nat → Nat
  | 0 => 9
  | 1 => 11
  | 2 => 12
  | 3 => 138
  | 4 => 22
  | _ => 0

/-- The reservation of a class in the transmit queue (R77). -/
def reservation : Nat → Nat
  | 0 => 1
  | 1 => 2
  | 2 => 4
  | 3 => 2
  | 4 => 1
  | _ => 0

/-- The payload bytes of a frame (R212). -/
def payloadBytes : Frame → List Byte
  | .release k n => keyBytes k ++ [n]
  | .offer k b m => keyBytes k ++ [BitVec.ofNat 8 b.val] ++ bytes16 m
  | .ask t k b m => [t.zeroExtend 8] ++ keyBytes k ++ [BitVec.ofNat 8 b.val] ++ bytes16 m
  | .segment k b i d => keyBytes k ++ [BitVec.ofNat 8 b.val, BitVec.ofNat 8 i.val] ++ d
  | .notice n => keyBytes n.active ++ keyBytes n.staging ++ [n.code] ++ bytes32 n.map ++ [n.flags]

/-- The 10 bits of the claim field: class, then source address, each most significant bit first (R71). -/
def claimBits (cls : Nat) (src : Addr) : List Bool :=
  let v : BitVec 10 := BitVec.ofNat 3 cls ++ src
  [v.getLsbD 9, v.getLsbD 8, v.getLsbD 7, v.getLsbD 6, v.getLsbD 5, v.getLsbD 4, v.getLsbD 3, v.getLsbD 2, v.getLsbD 1, v.getLsbD 0]

/-- The bits a CRC-16 covers: claim field, length byte, payload (R214). -/
def coveredBits (cls : Nat) (src : Addr) (payload : List Byte) : List Bool :=
  claimBits cls src ++ msbFirst (BitVec.ofNat 8 payload.length) ++ payload.flatMap msbFirst

/-- The 16 bits of a CRC-16 in the order sent (R214). -/
def crcBits (c : BitVec 16) : List Bool := msbFirst (c.extractLsb' 8 8) ++ msbFirst (c.extractLsb' 0 8)

/-- Bit insertion (R70): after every run of 6 identical bits, one bit of the opposite level, which begins a new run. -/
def insertBits (prev : Bool) (run : Nat) : List Bool → List Bool
  | [] => []
  | b :: bs =>
    if (if b = prev then run + 1 else 1) = 6 then b :: (!b) :: insertBits (!b) 1 bs
    else b :: insertBits b (if b = prev then run + 1 else 1) bs

/-- Removal of inserted bits (R70): none on an insertion violation. -/
def removeBits (prev : Bool) (run : Nat) : List Bool → Option (List Bool)
  | [] => some []
  | b :: bs =>
    if (if b = prev then run + 1 else 1) = 6 then
      match bs with
      | [] => some [b]
      | c :: cs => if c = b then none else (removeBits c 1 cs).map (b :: ·)
    else (removeBits b (if b = prev then run + 1 else 1) bs).map (b :: ·)

/-- The bits of a frame from its start bit to the last bit of its CRC-16, with inserted bits (R70, R71). True is
recessive. -/
def frameBits (src : Addr) (f : Frame) : List Bool :=
  let covered := coveredBits (frameClass f) src (payloadBytes f)
  insertBits true 0 (false :: (covered ++ crcBits (crc16 covered)))

/-- A number from bits, most significant first. -/
def bitsNat (bits : List Bool) : Nat := bits.foldl (fun n b => 2 * n + (if b then 1 else 0)) 0

/-- The bytes of a run of bits, eight at a time, most significant first. -/
def bitsBytes : Nat → List Bool → List Byte
  | 0, _ => []
  | n + 1, bits => BitVec.ofNat 8 (bitsNat (bits.take 8)) :: bitsBytes n (bits.drop 8)

/-- What a receiver makes of the bits of a frame (R70, R72, R80, R214). -/
inductive Reception where
  | insertionViolation
  | badLength
  | crcMismatch
  | formatError
  | good (cls : Nat) (src : Addr) (payload : List Byte)
  | unfinished
deriving DecidableEq, Repr

/-- The format checks of R72 on class, source address and payload. -/
def formatOk (cls : Nat) (src : Addr) (payload : List Byte) : Bool :=
  cls ≤ 4 && payload.length = classLength cls && src ≠ 0 && src ≠ 127 &&
  (cls ≠ 1 || field16 payload 9 ≠ 0) && (cls ≠ 2 || field16 payload 10 ≠ 0) &&
  (cls ≠ 2 || (byteAt payload 0).toNat ≤ 126) && (cls ≠ 3 || (byteAt payload 9).toNat ≤ 15)

/-- Reception of the bits from the start bit on, after removal of inserted bits (R71, R72, R214). -/
def receiveClean (bits : List Bool) : Reception :=
  let len := bitsNat ((bits.drop 11).take 8)
  if bits.length < 19 then .unfinished
  else if len < 9 || 138 < len then .badLength
  else if bits.length ≠ 35 + 8 * len then .unfinished
  else
    let covered := (bits.drop 1).take (18 + 8 * len)
    let cls := bitsNat ((bits.drop 1).take 3)
    let src : Addr := BitVec.ofNat 7 (bitsNat ((bits.drop 4).take 7))
    let payload := bitsBytes len (bits.drop 19)
    if bits.drop (19 + 8 * len) ≠ crcBits (crc16 covered) then .crcMismatch
    else if formatOk cls src payload then .good cls src payload
    else .formatError

/-- Reception of the bits read from the start bit on (R70 to R72, R80, R214). -/
def receiveBits (bits : List Bool) : Reception :=
  match removeBits true 0 bits with
  | none => .insertionViolation
  | some clean => receiveClean clean

/-- The idle count after bits read: 0 at a dominant bit, one more at a recessive bit, and no more than 10 (R69). -/
def idleAfter (count : Nat) (bits : List Bool) : Nat :=
  bits.foldl (fun n recessive => if recessive then min 10 (n + 1) else 0) count

/-- The idle count once a frame's reception is over (R69 to R72): a frame abandoned at an insertion violation or at its
length byte leaves the recessive bits read last; any other frame is read to its delimiter, where the count is set to 0. -/
def idleAtEnd (count : Nat) (bits : List Bool) : Nat :=
  match receiveBits bits with
  | .insertionViolation => idleAfter count bits
  | .badLength => idleAfter count bits
  | _ => 0

/-- Whether a receiver discards the bits read, given its delimiter reading (R80). -/
def discards (bits : List Bool) (dominantDelimiter : Bool) : Bool :=
  match receiveBits bits with
  | .unfinished => false
  | .good _ _ _ => dominantDelimiter
  | _ => true

/-! ## Answers -/

/-- The answer frame: result, length, payload, CRC-8 (R159, R216). -/
def answerBytes (a : Answer) : List Byte :=
  let body := resultCode a.result :: (bytes16 (BitVec.ofNat 16 a.payload.length) ++ a.payload)
  body ++ [crc8 body]

/-- A PEERS entry of 26 bytes (R218). -/
def peerBytes (p : Peer) : List Byte :=
  match p.part with
  | none => [p.addr.zeroExtend 8] ++ bytes16 (BitVec.ofNat 16 p.heard) ++ [BitVec.ofNat 8 p.tally, 0] ++ List.replicate 21 0
  | some n =>
    [p.addr.zeroExtend 8] ++ bytes16 (BitVec.ofNat 16 p.heard) ++
      [BitVec.ofNat 8 p.tally, flagPair n.servePermitted n.linkActive ||| 0x80] ++
      keyBytes (keySent n.active) ++ keyBytes (keySent n.staging) ++ [n.code] ++ bytes32 n.map

/-- One block's 7 bytes of a CHECKSUM answer (R219). -/
def checkLineBytes (c : CheckLine) : List Byte := outcomeCode c.outcome :: (bytes16 c.version ++ bytes32 c.crc)

end Sys2Proof.Machine
end

