-- ==== Sys2Proof/Decode.lean ====
section
/-! DEFINITION. Reading commands from words, from host port bytes and from the bits of the line. The table gives no row
any bits, so no word spells a command; a host command frame (R153, R154, R156, R217) and a line frame (R71, R72, R212)
do. -/

namespace Sys2Proof

/-- The command a word spells by the table's bits: no row of spec/opcode_table.json gives bits. -/
def decodeTableWord (_nbits _w : Nat) : Option Instr := none

namespace Machine

/-- The fault of a command frame (R156). -/
inductive FrameFault where
  | length | short | check | code
deriving DecidableEq, Repr

/-- Fault codes (R217). -/
def faultCode : FrameFault → Byte
  | .length => 1
  | .short => 2
  | .check => 3
  | .code => 4

/-- The host commands (R217). -/
inductive HostCommand where
  | idReport | ident | stat | slots | blocks | peers | event | read | checksum | accept | floor | loadBegin | loadData
  | loadEnd | loadAbort | publish | hold | resume | wipe | restart
deriving DecidableEq, Repr

/-- Command codes (R217). -/
def commandCode : HostCommand → Byte
  | .idReport => 0x01
  | .ident => 0x02
  | .stat => 0x10
  | .slots => 0x11
  | .blocks => 0x12
  | .peers => 0x13
  | .event => 0x14
  | .read => 0x20
  | .checksum => 0x21
  | .accept => 0x30
  | .floor => 0x31
  | .loadBegin => 0x40
  | .loadData => 0x41
  | .loadEnd => 0x42
  | .loadAbort => 0x43
  | .publish => 0x50
  | .hold => 0x60
  | .resume => 0x61
  | .wipe => 0x70
  | .restart => 0x71

/-- The command of a code; none for a code that is no command's (R217). -/
def commandOf (code : Byte) : Option HostCommand :=
  [HostCommand.idReport, .ident, .stat, .slots, .blocks, .peers, .event, .read, .checksum, .accept, .floor, .loadBegin,
    .loadData, .loadEnd, .loadAbort, .publish, .hold, .resume, .wipe, .restart].find? (fun c => commandCode c == code)

/-- The parameter bytes of each command (R166). -/
def paramLength : HostCommand → Nat
  | .idReport => 0
  | .ident => 2
  | .stat => 0
  | .slots => 0
  | .blocks => 4
  | .peers => 1
  | .event => 1
  | .read => 6
  | .checksum => 3
  | .accept => 2
  | .floor => 2
  | .loadBegin => 0
  | .loadData => 130
  | .loadEnd => 0
  | .loadAbort => 0
  | .publish => 1
  | .hold => 0
  | .resume => 0
  | .wipe => 0
  | .restart => 0

/-- The bytes of a command frame (R154). -/
def commandFrame (c : HostCommand) (params : List Byte) : List Byte :=
  let body := commandCode c :: BitVec.ofNat 8 params.length :: params
  body ++ [crc8 body]

/-- The judgement of the complete bytes of a command transaction: the first fault of R156, or the command and its
parameter bytes. -/
def judgeFrame (bytes : List Byte) : Except FrameFault (HostCommand × List Byte) :=
  let len := (byteAt bytes 1).toNat
  if 2 ≤ bytes.length ∧ 140 < len then .error .length
  else if bytes.length < 2 ∨ bytes.length < 3 + len then .error .short
  else if byteAt bytes (2 + len) ≠ crc8 (bytes.take (2 + len)) then .error .check
  else match commandOf (byteAt bytes 0) with
    | none => .error .code
    | some c => .ok (c, (bytes.drop 2).take len)

/-- The fault of the complete bytes of a command transaction, if they have one (R156). -/
def frameFault (bytes : List Byte) : Option FrameFault :=
  match judgeFrame bytes with
  | .error f => some f
  | .ok _ => none

/-! ## Line frames -/

/-- The fields of a NOTICE payload (R212). -/
def noticeAt (payload : List Byte) : NoticeFrame :=
  { active := keyAt payload 0, staging := keyAt payload 8, code := byteAt payload 16, map := field32 payload 17,
    flags := byteAt payload 21 }

/-- The command that a received payload stands for, its fields read at the offsets of its class (R72, R212). -/
def payloadCommand (cls : Nat) (src : Addr) (payload : List Byte) : Option Instr :=
  match cls with
  | 0 => some (.releaseReceived src (keyAt payload 0) (byteAt payload 8))
  | 1 => some (.offerReceived src (keyAt payload 0) (byteAt payload 8).toFin (field16 payload 9))
  | 2 => some (.askReceived src (byteAt payload 0) (keyAt payload 1) (byteAt payload 9).toFin (field16 payload 10))
  | 3 => some (.segmentReceived src (keyAt payload 0) (byteAt payload 8).toFin (byteAt payload 9) (payload.drop 10))
  | 4 => some (.noticeReceived src (noticeAt payload))
  | _ => none

/-- The command that the bits of a frame and its delimiter stand for at a station with the address `own`: discarded, a
clash, or delivered by class; none while the frame is unfinished (R72, R80 to R82, R212). -/
def lineCommand (own : Addr) (bits : List Bool) (dominantDelimiter : Bool) : Option Instr :=
  match receiveBits bits with
  | .unfinished => none
  | .good cls src payload =>
    if dominantDelimiter then some (.frameDiscarded bits true)
    else if src = own then some .clash
    else payloadCommand cls src payload
  | _ => some (.frameDiscarded bits dominantDelimiter)

/-- The command by which a frame that another station sends reaches this one (R82, R212). -/
def receptionOf (src : Addr) : Frame → Instr
  | .release k n => .releaseReceived src k n
  | .offer k b m => .offerReceived src k b m
  | .ask t k b m => .askReceived src (t.zeroExtend 8) k b m
  | .segment k b i d => .segmentReceived src k b (BitVec.ofNat 8 i.val) d
  | .notice n => .noticeReceived src n

end Machine
end Sys2Proof
end

