-- ==== Sys2Proof/Machine/Memory.lean ====
section
/-! DEFINITION. The memory array: cells in one canonical form, and reads, programs and erases of its units
(R1 to R5, R8, R14). -/

namespace Sys2Proof.Machine

/-- What an address not listed reads as: the vendor part of C0 as manufactured (R6), and FFh, erased, elsewhere (R4). -/
def unlisted (a : Nat) : Byte :=
  if 0x100000 ≤ a ∧ a < 0x10000D then vendorBytes.getD (a - 0x100000) erasedByte else erasedByte

/-- One byte of the array. -/
def Memory.read (m : List Host.Cell) (a : Nat) : Byte :=
  match m with
  | [] => unlisted a
  | c :: cs => if c.1 = a then c.2 else Memory.read cs a

/-- The array with one byte changed, in canonical form. -/
def Memory.write (m : List Host.Cell) (a : Nat) (v : Byte) : List Host.Cell :=
  match m with
  | [] => if v = unlisted a then [] else [(a, v)]
  | c :: cs =>
    if a < c.1 then (if v = unlisted a then c :: cs else (a, v) :: c :: cs)
    else if a = c.1 then (if v = unlisted a then cs else (a, v) :: cs)
    else c :: Memory.write cs a v

/-- The canonical form: addresses strictly rising, no cell equal to what its address reads as unlisted. -/
abbrev Memory.wf (m : List Host.Cell) : Prop :=
  m.Pairwise (fun c d => c.1 < d.1) ∧ ∀ c ∈ m, c.2 ≠ unlisted c.1

/-- `n` bytes from an address, in address order. -/
def readBytes (m : List Host.Cell) (a : Nat) : Nat → List Byte
  | 0 => []
  | n + 1 => Memory.read m a :: readBytes m (a + 1) n

/-- The array with a run of bytes written from an address. -/
def writeBytes (m : List Host.Cell) (a : Nat) : List Byte → List Host.Cell
  | [] => m
  | v :: vs => writeBytes (Memory.write m a v) (a + 1) vs

/-- The byte address of an offset in a unit (R1). -/
def unitAddr (u : Nat) (o : Nat) : Nat := u * 2048 + o

/-- Physical numbers of the control units (R1). -/
def controlNumber : ControlUnit → Nat
  | .c0 => 512
  | .c1 => 513
  | .c2 => 514
  | .c3 => 515
  | .c4 => 516
  | .c5 => 517

/-- A commit unit as a control unit. -/
def CommitUnit.unit : CommitUnit → ControlUnit
  | .c2 => .c2
  | .c3 => .c3

/-- The other commit unit (R12). -/
def CommitUnit.other : CommitUnit → CommitUnit
  | .c2 => .c3
  | .c3 => .c2

/-- The marks row of a slot (R14). -/
def marksRow : Slot → ControlUnit
  | .a => .c4
  | .b => .c5

/-- The home unit of a block of a slot (R1). -/
def homeUnit : Slot → Block → Nat
  | .a, b => b.val
  | .b, b => 256 + b.val

/-- The current unit of a block of a slot: the spare of the highest position whose VALID entry names them, or the home
unit (R9). -/
def currentUnit (spares : Vector SparePos 8) (x : Slot) (b : Block) : Nat :=
  spares.toList.zipIdx.foldl (fun u e => if e.1 = .valid x b then 518 + e.2 else u) (homeUnit x b)

/-- The number of positions up to the highest one that is not FREE; entries go in above them (R9). -/
def usedSpares (spares : Vector SparePos 8) : Nat :=
  spares.toList.zipIdx.foldl (fun n e => if e.1 = .free then n else e.2 + 1) 0

/-- The position of the next spare map entry, if one is left (R9, R27). -/
def nextSpare (spares : Vector SparePos 8) : Option (Fin 8) :=
  let n := usedSpares spares
  if h : n < 8 then some ⟨n, h⟩ else none

/-- The number of spares left (R24). -/
def sparesLeft (spares : Vector SparePos 8) : Nat := 8 - usedSpares spares

/-- The 2,048 bytes of a unit. -/
def unitBytes (m : List Host.Cell) (u : Nat) : List Byte := readBytes m (unitAddr u 0) 2048

/-- The 128 bytes of a segment of a unit (R1). -/
def segmentBytes (m : List Host.Cell) (u : Nat) (i : Nat) : List Byte := readBytes m (unitAddr u (128 * i)) 128

/-- The array with every byte of a unit reading FFh (R2); C0, whose vendor part an unlisted address holds, is never erased. -/
def eraseUnit (m : List Host.Cell) (u : Nat) : List Host.Cell :=
  m.filter (fun c => c.1 < unitAddr u 0 || unitAddr u 2048 ≤ c.1)

/-- The content an erase leaves: FFh throughout, or the given bytes, and FFh beyond them (R2, R40). -/
def erasedLeft : Left → List Byte
  | .expected => []
  | .worn c => c.take 2048
  | .cut k => k.take 2048

/-- The array after an erase of a unit that leaves the given content (R2, R40). -/
def eraseLeaving (m : List Host.Cell) (u : Nat) (left : Left) : List Host.Cell :=
  writeBytes (eraseUnit m u) (unitAddr u 0) (erasedLeft left)

/-- The blank check of a unit: every byte reads FFh (R2). -/
def blankCheck (m : List Host.Cell) (u : Nat) : Bool := (unitBytes m u).all (· = erasedByte)

/-- The expected content of a program: the bitwise AND of the previous content and the pattern (R3). -/
def programmed (before pattern : List Byte) : List Byte := List.zipWith (· &&& ·) before pattern

/-- The content a program leaves (R3, R40). -/
def programLeft (before pattern : List Byte) : Left → List Byte
  | .expected => programmed before pattern
  | .worn c => c.take before.length ++ (programmed before pattern).drop c.length
  | .cut keep => List.zipWith (fun b p => b &&& p) before
      ((List.range pattern.length).map (fun i => byteAt pattern i ||| keep.getD i 0))

/-- What a program cut short may leave: each bit that the pattern would clear reads its previous value or 0, and every other
bit is unchanged (R40). So no bit rises, and none falls that the pattern keeps. -/
def cutContent (before pattern after : List Byte) : Bool :=
  (List.range pattern.length).all fun i =>
    byteAt after i &&& ~~~ byteAt before i = 0 && byteAt before i &&& byteAt pattern i &&& ~~~ byteAt after i = 0

/-- The 128-byte pattern of a program that holds bytes at an offset of its segment and FFh elsewhere (R3). -/
def segmentPattern (o : Nat) (bytes : List Byte) : List Byte :=
  List.replicate o erasedByte ++ bytes ++ List.replicate (128 - o - bytes.length) erasedByte

/-- The array after a program of a pattern at an offset of a unit, the first byte of a segment (R3, R40). -/
def programLeaving (m : List Host.Cell) (u o : Nat) (pattern : List Byte) (left : Left) : List Host.Cell :=
  writeBytes m (unitAddr u o) (programLeft (readBytes m (unitAddr u o) pattern.length) pattern left)

/-- The read-back compare of a program: the bytes read equal the expected content (R3). -/
def readBackMatches (before after : List Host.Cell) (u o : Nat) (pattern : List Byte) : Bool :=
  readBytes after (unitAddr u o) pattern.length = programmed (readBytes before (unitAddr u o) pattern.length) pattern

/-- The pattern that sets the mark of a block: 0 at bit b mod 8 of byte b div 8 and 1 everywhere else (R14, R35). -/
def markPattern (b : Block) : List Byte := segmentPattern (b.val / 8) [~~~ ((1 : Byte) <<< (b.val % 8))]

/-- The mark of a block is set in the first 32 bytes of a marks row: its bit reads 0 (R14). -/
def markSet (row : List Byte) (b : Block) : Bool := !(row.getD (b.val / 8) erasedByte).getLsbD (b.val % 8)

/-- The 64 bytes of a record position of a commit unit (R10). -/
def recordAt (m : List Host.Cell) (u : CommitUnit) (q : Nat) : List Byte :=
  readBytes m (unitAddr (controlNumber u.unit) (64 * q)) 64

end Sys2Proof.Machine
end

