-- ==== Sys2Proof/Machine/Ops.lean ====
section
/-! DEFINITION. The shared operations: events and answers, catalogue look-ups and block-state changes, the request
queues and the arbiter, the record work list, the transmit queue, and the passage of time. -/

namespace Sys2Proof.Machine

/-! ## Tables and counters -/

/-- A vector with a function applied to each entry. -/
def mapVec {α β : Type} {n : Nat} (f : α → β) (v : Vector α n) : Vector β n :=
  ⟨(v.toList.map f).toArray, by simp⟩

/-- A vector with a function of index and entry applied to each entry. -/
def mapVecIdx {α β : Type} {n : Nat} (f : Nat → α → β) (v : Vector α n) : Vector β n :=
  ⟨(v.toList.zipIdx.map (fun e => f e.2 e.1)).toArray, by simp⟩

/-- A counter that stops at 65,535 (R76, R80, R119, R150). -/
def count16 (n : Nat) : Nat := min 65535 (n + 1)

/-- The bit of a segment in a mask. -/
def segBit (i : Seg) : Mask := (1 : Mask) <<< i.val

/-- A mask holds a segment. -/
def hasSeg (m : Mask) (i : Seg) : Bool := m.getLsbD i.val

/-- The lowest index of a mask at or above `from_`, or 16 when there is none (R143). -/
def lowestFrom (m : Mask) (from_ : Nat) : Nat :=
  ((List.range 16).find? (fun i => from_ ≤ i && m.getLsbD i)).getD 16

/-- The highest index of a mask (R115). -/
def highestSeg (m : Mask) : Seg :=
  (((List.range 16).reverse.find? (fun i => m.getLsbD i)).map (Fin.ofNat 16)).getD 0

/-! ## Events, answers and attention (R157, R159, R161, R162) -/

/-- The event queue after an occurrence of a kind (R162). -/
def raiseIn (k : EventKind) (d : BitVec 32) : List EventEntry → List EventEntry
  | [] => [{ kind := k, count := 1, first := d, last := d }]
  | e :: es =>
    if e.kind = k then { e with count := min 255 (e.count + 1), last := d } :: es else e :: raiseIn k d es

/-- An event raised (R162). -/
def raise (k : EventKind) (d : BitVec 32) (s : State) : State :=
  { s with port := { s.port with events := raiseIn k d s.port.events } }

/-- The command in progress ends with an answer (R157, R159). -/
def answer (r : ResultCode) (payload : List Byte) (s : State) : State :=
  { s with port := { s.port with state := .answered, answer := some { result := r, payload := payload }, command := none } }

/-- ATTN# is low (R161). -/
def attnLow (s : State) : Bool := s.port.events ≠ [] || s.port.state = .answered

/-- The command in progress becomes another (R157). -/
def setCommand (c : Command) (s : State) : State := { s with port := { s.port with command := some c } }

/-! ## Catalogue look-ups (R42, R48) -/

/-- The other physical slot. -/
def Slot.other : Slot → Slot
  | .a => .b
  | .b => .a

/-- The slot record of a physical slot. -/
def slotRec (s : State) : Slot → SlotRecord
  | .a => s.cat.slotA
  | .b => s.cat.slotB

/-- The state with the slot record of a physical slot replaced. -/
def setSlot (x : Slot) (r : SlotRecord) (s : State) : State :=
  match x with
  | .a => { s with cat := { s.cat with slotA := r } }
  | .b => { s with cat := { s.cat with slotB := r } }

/-- The physical slot whose role is STAGING (R42). -/
def stagingSlot (s : State) : Slot := s.cat.activeSlot.other

/-- The physical slot of a role (R42). -/
def roleSlot (s : State) : Role → Slot
  | .active => s.cat.activeSlot
  | .staging => stagingSlot s

/-- The slot record of the active slot. -/
def activeRec (s : State) : SlotRecord := slotRec s s.cat.activeSlot

/-- The slot record of the staging slot. -/
def stagingRec (s : State) : SlotRecord := slotRec s (stagingSlot s)

/-- The state of a block of a slot record; block numbers above 255 do not occur. -/
def SlotRecord.state (r : SlotRecord) (k : Nat) : BlockState := r.blocks.toList.getD k .unknown

/-- The number of VERIFIED blocks (R45). -/
def SlotRecord.verifiedCount (r : SlotRecord) : Nat := (r.blocks.toList.filter (· = .verified)).length

/-- The number of DEAD blocks (R45). -/
def SlotRecord.deadCount (r : SlotRecord) : Nat := (r.blocks.toList.filter (· = .dead)).length

/-- Every block from 0 to the block count is VERIFIED; false while the count is absent. -/
def SlotRecord.whole (r : SlotRecord) : Bool :=
  match r.count with
  | none => false
  | some n => (List.range (n + 1)).all (fun k => r.state k = .verified)

/-- The active version, 0 in NONE (R56, R65). -/
def activeVersion (s : State) : BitVec 16 := versionOf (activeRec s).key

/-- A key is of the station's family (R41). -/
def ofFamily (s : State) (k : Key) : Bool := s.startUp.family == some k.family

/-- The slot that holds a key, if one does (R48, R135). -/
def holderOf (s : State) (k : Key) : Option Slot :=
  if (activeRec s).key = some k then some s.cat.activeSlot
  else if (stagingRec s).key = some k then some (stagingSlot s)
  else none

/-- A slot is the staging slot in RECLAIMING (R48). -/
def reclaimingSlot (s : State) (x : Slot) : Bool := x = stagingSlot s && s.cat.stagingState = .reclaiming

/-- Phase RUNNING: from the end of the rebuild (R192). -/
def running (s : State) : Bool := s.startUp.stage = .running

/-! ## Block states (R46) -/

/-- The events of the block-state table (R46). -/
inductive BlockEvent where
  | eraseSubmitted | eraseBlank | eraseDead | programSubmitted | programDone | programRelocated | programDead
  | verifySubmitted | verifyPass | verifyFail | isProtected | givenUp
deriving DecidableEq, Repr

/-- The block-state table of R46; a state that is no From state of the row stays. -/
def blockNext (loading : Bool) (e : BlockEvent) (b : BlockState) : BlockState :=
  match e, b with
  | .eraseSubmitted, .unknown => .erasing
  | .eraseSubmitted, .dead => .erasing
  | .eraseBlank, .erasing => .blank
  | .eraseBlank, .unknown => .blank
  | .eraseDead, .erasing => .dead
  | .programSubmitted, .blank => .filling
  | .programDone, .filling => .filling
  | .programRelocated, .filling => .blank
  | .programDead, .filling => .dead
  | .verifySubmitted, .filling => .verifying
  | .verifySubmitted, .blank => if loading then .verifying else .blank
  | .verifyPass, .verifying => .verified
  | .verifyFail, .verifying => .unknown
  | .isProtected, .erasing => .unknown
  | .isProtected, .filling => .unknown
  | .givenUp, .filling => .unknown
  | .givenUp, .erasing => .unknown
  | _, b => b

/-- A slot record with the state of one block set. -/
def SlotRecord.setState (r : SlotRecord) (b : Block) (v : BlockState) : SlotRecord :=
  { r with blocks := r.blocks.set b v }

/-- The state of a staging block after an event (R46). -/
def blockEvent (e : BlockEvent) (b : Block) (s : State) : State :=
  let r := stagingRec s
  setSlot (stagingSlot s) (r.setState b (blockNext (s.cat.stagingState = .loading) e r.blocks[b])) s

/-- The state of a staging block. -/
def stagingBlock (s : State) (b : Block) : BlockState := (stagingRec s).blocks[b]

/-- A slot record whose blocks above the block count are UNUSED (R47). -/
def SlotRecord.unuseAbove (r : SlotRecord) (n : Nat) : SlotRecord :=
  { r with blocks := mapVecIdx (fun k v => if n < k then .unused else v) r.blocks }

/-! ## Request queues and arbiter (R20 to R25) -/

/-- The request queues (R20). -/
inductive Queue where
  | record | fetch | serve | host
deriving DecidableEq, Repr

/-- The capacity of a request queue (R20). -/
def Queue.capacity : Queue → Nat
  | .record => 2
  | .fetch => 4
  | .serve => 2
  | .host => 1

/-- The jobs waiting in a request queue, oldest first. -/
def Sequencer.jobs (f : Sequencer) : Queue → List Job
  | .record => f.recordQ
  | .fetch => f.fetchQ
  | .serve => f.serveQ
  | .host => f.hostQ

/-- The sequencer with the jobs of one queue replaced. -/
def Sequencer.setJobs (f : Sequencer) (q : Queue) (js : List Job) : Sequencer :=
  match q with
  | .record => { f with recordQ := js }
  | .fetch => { f with fetchQ := js }
  | .serve => { f with serveQ := js }
  | .host => { f with hostQ := js }

/-- Every request queue is empty. -/
def Sequencer.noJobs (f : Sequencer) : Bool := f.recordQ = [] && f.fetchQ = [] && f.serveQ = [] && f.hostQ = []

/-- A serve or host pick (R22): the queue the turn names when both hold jobs, else the one that does; the count becomes
0 and the turn names the other (R23). -/
def Sequencer.pickServeHost (f : Sequencer) : Option (Job × Sequencer) :=
  match f.serveQ, f.hostQ with
  | [], [] => none
  | j :: js, [] => some (j, { f with serveQ := js, fetchRun := 0, turn := .host })
  | [], j :: js => some (j, { f with hostQ := js, fetchRun := 0, turn := .serve })
  | j :: js, k :: ks =>
    if f.turn = .serve then some (j, { f with serveQ := js, fetchRun := 0, turn := .host })
    else some (k, { f with hostQ := ks, fetchRun := 0, turn := .serve })

/-- The arbiter's pick (R22) with the fetch-run count after it (R23). -/
def Sequencer.pick (f : Sequencer) : Option (Job × Sequencer) :=
  match f.recordQ with
  | j :: js => some (j, { f with recordQ := js })
  | [] =>
    if f.fetchRun = 4 && !(f.serveQ = [] && f.hostQ = []) then f.pickServeHost
    else match f.fetchQ with
      | j :: js =>
        some (j, { f with fetchQ := js, fetchRun := if f.serveQ = [] && f.hostQ = [] then 0 else f.fetchRun + 1 })
      | [] => f.pickServeHost

/-- What the catalogue answers at the take of READ RANGE or CHECK BLOCK (R34, R48). -/
def resolve (s : State) (role : Role) (b : Block) : Resolved :=
  let r := slotRec s (roleSlot s role)
  { slot := roleSlot s role, version := versionOf r.key,
    want := if b = 0 then .manifest (keySent r.key) else .check (checkEntry r.checks b.val),
    readable := r.key.isSome && r.blocks[b] = .verified }

/-- The active-slot law (R25): an erase or program without the wipe mark that names the active slot is PROTECTED. -/
def protects (s : State) (req : Requester) (x : Slot) : Bool := req ≠ .wipe && x = s.cat.activeSlot

/-- The service of a job as the sequencer takes it (R22, R25, R26, R34). -/
def takeJob (s : State) (j : Job) : Service :=
  match j with
  | .eraseUnit req x _ =>
    { job := j, op := if protects s req x then .protectedReturn else .erase 0, orphan := false, resolved := none }
  | .programSegment req x _ _ _ =>
    { job := j, op := if protects s req x then .protectedReturn else .main, orphan := false, resolved := none }
  | .eraseControl _ => { job := j, op := .erase 0, orphan := false, resolved := none }
  | .readRange role b _ _ => { job := j, op := .main, orphan := false, resolved := some (resolve s role b) }
  | .checkBlock role b => { job := j, op := .main, orphan := false, resolved := some (resolve s role b) }
  | _ => { job := j, op := .main, orphan := false, resolved := none }

/-- A pick: the job taken enters service; with every queue empty the sequencer is idle (R22). -/
def pickJob (s : State) : State :=
  match s.flash.pick with
  | none => { s with flash := { s.flash with service := none } }
  | some (j, f) => { s with flash := { f with service := some (takeJob s j) } }

/-- A submission (R20): taken at once while the sequencer is idle and every queue empty (R22), else queued; a full queue
does not accept it. -/
def submit (q : Queue) (j : Job) (s : State) : State :=
  let queued := { s with flash := s.flash.setJobs q (s.flash.jobs q ++ [j]) }
  if s.flash.service = none && s.flash.noJobs then pickJob queued
  else if (s.flash.jobs q).length < q.capacity then queued
  else s

/-- A withdrawal of the queued jobs that a test names (R21). -/
def withdrawJobs (q : Queue) (p : Job → Bool) (s : State) : State :=
  { s with flash := s.flash.setJobs q ((s.flash.jobs q).filter (fun j => !p j)) }

/-! ## Record work list (R50) -/

/-- The catalogue submits the oldest entries of its record work list while the record queue has room (R50). -/
def pumpWork : Nat → State → State
  | 0, s => s
  | n + 1, s =>
    match s.cat.work with
    | [] => s
    | j :: js =>
      if s.flash.recordQ.length < 2 then pumpWork n (submit .record j { s with cat := { s.cat with work := js } }) else s

/-- A job added at the tail of the record work list (R50). -/
def addWork (j : Job) (s : State) : State :=
  pumpWork 8 { s with cat := { s.cat with work := s.cat.work ++ [j] } }

/-- The service ends and the arbiter picks again (R22); the record queue is refilled from the record work list (R50). -/
def endService (s : State) : State := pumpWork 8 (pickJob s)

/-! ## Transmit queue (R77, R79) -/

/-- The answers to a submission (R77). -/
inductive TxAnswer where
  | accepted | full | noLink
deriving DecidableEq, Repr

/-- The link state accepts submissions: JOINING or ACTIVE (R77). -/
def linkSends (l : LinkState) : Bool := l = .joining || l = .active

/-- The entries of a class in the transmit queue. -/
def classCount (q : List TxEntry) (cls : Nat) : Nat := (q.filter (fun e => frameClass e.frame = cls)).length

/-- The answer to the submission of a frame (R77, R79). -/
def txAnswer (line : LineController) (f : Frame) : TxAnswer :=
  if !linkSends line.link then .noLink
  else if classCount line.queue (frameClass f) < reservation (frameClass f) then .accepted
  else if frameClass f = 4 && !line.queue.any (fun e => frameClass e.frame = 4 && e.onLine) then .accepted
  else .full

/-- The transmit queue after an accepted submission: a NOTICE replaces a queued one (R79). -/
def txQueued (q : List TxEntry) (f : Frame) (o : Owner) : List TxEntry :=
  (if frameClass f = 4 then q.filter (fun e => frameClass e.frame ≠ 4) else q) ++
    [{ frame := f, owner := o, attempts := 0, onLine := false, live := true }]

/-- A submission to the transmit queue (R77). -/
def txSubmit (f : Frame) (o : Owner) (s : State) : State :=
  if txAnswer s.line f = .accepted then { s with line := { s.line with queue := txQueued s.line.queue f o } } else s

/-- A withdrawal of the entries a test names (R79): refused for an entry on the line, which stays. -/
def txWithdraw (p : TxEntry → Bool) (s : State) : State :=
  { s with line := { s.line with queue := s.line.queue.filter (fun e => !p e || e.onLine) } }

/-- The entries a test names given up by their producer (R105, R141, R147): withdrawn, or, on the line, no longer live. -/
def txGiveUp (p : TxEntry → Bool) (s : State) : State :=
  let t := txWithdraw p s
  { t with line := { t.line with queue := t.line.queue.map (fun e => if p e then { e with live := false } else e) } }

/-- The entry on the line, if there is one (R73). -/
def onLineEntry (s : State) : Option TxEntry := s.line.queue.find? (·.onLine)

/-! ## Time -/

/-- A peer entry's ages after a time (R95, R97, R100). -/
def Peer.elapse (ms : Nat) (p : Peer) : Peer :=
  { p with heard := min 6000 (p.heard + ms), asked := min 65535 (p.asked + ms) }

/-- A context's running timer after a time: the claim window in CLAIMING, the silence timer in RECEIVING (R105). -/
def Ctx.elapse (ms : Nat) (c : Ctx) : Ctx :=
  { c with claimLeft := if c.state = .claiming then c.claimLeft - ms else c.claimLeft,
           silenceLeft := if c.state = .receiving then c.silenceLeft - ms else c.silenceLeft }

/-- The LISTEN-ONLY timer after a time; held, it does not run (R87). -/
def ListenTimer.elapse (ms : Nat) : ListenTimer → ListenTimer
  | .running left => .running (left - ms)
  | t => t

/-- Time passes: every running timer and age moves, none past its limit. The expiry of a timer is a command of its own
(DESIGN CHOICE, assumption log 4). -/
def elapse (ms : Nat) (s : State) : State :=
  { s with
    line := { s.line with joinLeft := s.line.joinLeft.map (· - ms), listen := s.line.listen.elapse ms }
    notice := { s.notice with
      peers := s.notice.peers.map (Peer.elapse ms)
      spacing := s.notice.spacing.map (fun t => min 2000 (t + ms))
      periodicLeft := s.notice.periodicLeft.map (· - ms) }
    fetch := { s.fetch with
      ctxs := mapVec (Ctx.elapse ms) s.fetch.ctxs
      deferral := s.fetch.deferral.map (fun d => { d with left := d.left - ms }) }
    serve := { s.serve with
      queue := s.serve.queue.map (fun e => if e.state = .waiting then { e with delayLeft := e.delayLeft - ms } else e) } }

end Sys2Proof.Machine
end

