-- ==== Sys2Proof/Machine/Notice.lean ====
section
/-! DEFINITION. The notice unit's operations: NOTICE content and submissions, and the peer table (chapter Peer Table
and Notices). -/

namespace Sys2Proof.Machine

/-! ## This station's NOTICE -/

/-- Group `g` of a slot record is whole (R91, Conventions): its first block does not exceed the block count and each of
its blocks up to the count is VERIFIED. -/
def groupWhole (r : SlotRecord) (g : Nat) : Bool :=
  match r.count with
  | none => false
  | some n => 8 * g ≤ n && (List.range 8).all (fun i => n < 8 * g + i || r.state (8 * g + i) = .verified)

/-- The group map of a slot record (R91). -/
def groupMap (r : SlotRecord) : BitVec 32 :=
  (List.range 32).foldl (fun m g => if groupWhole r g then m ||| ((1 : BitVec 32) <<< g) else m) 0

/-- The key the NOTICE gives for the active slot: in PRESENT or DAMAGED (R90). -/
def announcedActive (s : State) : Option Key :=
  if s.cat.activeState = .none then none else (activeRec s).key

/-- The content of this station's NOTICE as it stands (R90, R91). -/
def noticeContent (s : State) : NoticeFrame :=
  { active := keySent (announcedActive s), staging := keySent (stagingRec s).key,
    code := stagingCode s.cat.stagingState, map := groupMap (stagingRec s),
    flags := flagPair s.startUp.straps.serve (s.line.link = .active) }

/-- A NOTICE submission and the action on its answer (R92, R93). An ACCEPTED one takes the place of a submission still owed,
which R93 leaves open where the NOTICE on the line has lost contention (DESIGN CHOICE, assumption log 38). -/
def submitNotice (s : State) : State :=
  let f := noticeContent s
  match txAnswer s.line (.notice f) with
  | .accepted =>
    let t := txSubmit (.notice f) .noticeUnit s
    { t with notice := { t.notice with
        spacing := some 0
        periodicLeft := if s.line.link = .active then some 2000 else t.notice.periodicLeft
        changed := false
        owed := false
        last := some f } }
  | .full => { s with notice := { s.notice with owed := true } }
  | .noLink => s

/-- The spacing timer stands at 250 ms or more (R92); before a first accepted submission nothing holds a NOTICE back. -/
def spacingRunOut (s : State) : Bool :=
  match s.notice.spacing with
  | none => true
  | some t => 250 ≤ t

/-- A NOTICE whose content differs from the last ACCEPTED content is submitted (R92). -/
def submitIfDifferent (s : State) : State :=
  if s.notice.last = some (noticeContent s) then { s with notice := { s.notice with changed := false } }
  else submitNotice s

/-- A field of R90 has changed (R92 item 2, R94). -/
def noticeChanged (s : State) : State :=
  match s.line.link with
  | .joining => { s with notice := { s.notice with changed := true } }
  | .active =>
    if spacingRunOut s then
      (if s.notice.last = some (noticeContent s) then s else submitNotice s)
    else { s with notice := { s.notice with changed := true } }
  | _ => s

/-- A NOTICE with the content as it stands has been ACCEPTED at this moment, which has cleared the change flag (R92). -/
def justAccepted (s : State) : Bool := s.notice.spacing = some 0 && s.notice.last = some (noticeContent s)

/-- The end of an event: the notice unit acts when the content has changed in it, and no NOTICE that carries the change has
been ACCEPTED in it (R92, R94). -/
def noticeWatch (before after : State) : State :=
  if noticeContent before = noticeContent after || justAccepted after then after else noticeChanged after

/-- An owed submission is made again (R93). -/
def submitOwed (s : State) : State := if s.notice.owed then submitNotice s else s

/-! ## Peer table -/

/-- A new peer entry (R96). -/
def Peer.fresh (a : Addr) : Peer := { addr := a, heard := 0, laterFrames := 0, part := none, tally := 0, asked := 65535 }

/-- A peer was last heard before another: its last-heard age is greater or, within the same millisecond, more frames have ended
since (R96: the frames end one after another). -/
def heardBefore (p q : Peer) : Bool :=
  q.heard < p.heard || (q.heard = p.heard && q.laterFrames < p.laterFrames)

/-- The table without the entry with the greatest last-heard age (R96). -/
def evictOldest (ps : List Peer) : List Peer := ps.eraseP (fun p => ps.all (fun q => !heardBefore q p))

/-- An entry as a frame of another peer is delivered. -/
def Peer.countFrame (p : Peer) : Peer := { p with laterFrames := p.laterFrames + 1 }

/-- The table after the touch of an address (R96). -/
def touched (a : Addr) (ps : List Peer) : List Peer :=
  if ps.any (fun p => p.addr = a) then
    ps.map (fun p => if p.addr = a then { p with heard := 0, laterFrames := 0 } else p.countFrame)
  else (if 24 ≤ ps.length then evictOldest ps else ps).map Peer.countFrame ++ [Peer.fresh a]

/-- The state with the peer table replaced. -/
def setPeers (ps : List Peer) (s : State) : State := { s with notice := { s.notice with peers := ps } }

/-- The peer-table touch (R82, R96). -/
def touchPeer (a : Addr) (s : State) : State := setPeers (touched a s.notice.peers) s

/-- The entry of an address. -/
def findPeer (s : State) (a : Addr) : Option Peer := s.notice.peers.find? (fun p => p.addr = a)

/-- The entry of an address changed, when the table has one. -/
def updatePeer (a : Addr) (f : Peer → Peer) (s : State) : State :=
  setPeers (s.notice.peers.map (fun p => if p.addr = a then f p else p)) s

/-- One more unanswered ask of an address, at most 3; target 0 adds none (R99). -/
def addTally (a : Addr) (s : State) : State :=
  if a = 0 then s else updatePeer a (fun p => { p with tally := min 3 (p.tally + 1) }) s

/-- An ASK to an address has been reported SENT (R100). -/
def markAsked (a : Addr) (s : State) : State :=
  if a = 0 then s else updatePeer a (fun p => { p with asked := 0 }) s

/-- A NOTICE is well formed (R98). -/
def noticeWellFormed (n : NoticeFrame) : Bool :=
  let active := keyRead n.active
  let staging := keyRead n.staging
  n.code.toNat ≤ 7 &&
  (match active with | some k => k.version ≠ 0 | none => true) &&
  (match staging with | some k => k.version ≠ 0 | none => true) &&
  (if n.code = 0 then staging.isNone else if n.code = 5 then true else staging.isSome) &&
  (match active, staging with | some k, some l => k.version ≠ l.version | _, _ => true) &&
  (staging.isSome || n.map = 0)

/-- The notice part a NOTICE gives (R95, R212). -/
def partOf (n : NoticeFrame) : NoticePart :=
  { active := keyRead n.active, staging := keyRead n.staging, code := n.code, map := n.map,
    servePermitted := n.flags.getLsbD 0, linkActive := n.flags.getLsbD 1 }

/-- A NOTICE is of the station's family (R82). -/
def noticeOfFamily (s : State) (n : NoticeFrame) : Bool :=
  (match keyRead n.active with | some k => ofFamily s k | none => true) &&
  (match keyRead n.staging with | some k => ofFamily s k | none => true)

/-- The notice part and tally of an entry refreshed (R98). -/
def refreshPeer (a : Addr) (n : NoticeFrame) (s : State) : State :=
  updatePeer a (fun p => { p with part := some (partOf n), tally := 0 }) s

/-- The candidate keys of a NOTICE: the active key, then the staging key in FETCHING or COMPLETE (R102). -/
def noticeCandidates (n : NoticeFrame) : List Key :=
  (keyRead n.active).toList ++ (if n.code = 1 ∨ n.code = 2 then (keyRead n.staging).toList else [])

/-- A peer holds a block of a key, given the block count known for the key (R101). -/
def Peer.holds (p : Peer) (k : Key) (b : Block) (count : Option Nat) : Bool :=
  match p.part with
  | none => false
  | some n =>
    n.servePermitted && n.linkActive &&
    ((n.active = some k && (match count with | some c => b.val ≤ c | none => b.val = 0)) ||
     (n.staging = some k && n.map.getLsbD (b.val / 8)))

end Sys2Proof.Machine
end

