-- ==== Sys2Proof/Machine/Fetch.lean ====
section
/-! DEFINITION. The fetch engine's operations: opening, asking, hearing OFFERs and SEGMENTs, programs, settling,
deferral, hold and abandonment (chapter Fetch Engine and Segment Pool). -/

namespace Sys2Proof.Machine

/-! ## Contexts -/

/-- The four contexts in order of number. -/
def ctxIds : List (Fin 4) := [0, 1, 2, 3]

/-- A fetch context. -/
def ctxOf (s : State) (i : Fin 4) : Ctx := s.fetch.ctxs[i]

/-- The state with a context replaced. -/
def setCtx (i : Fin 4) (c : Ctx) (s : State) : State :=
  { s with fetch := { s.fetch with ctxs := s.fetch.ctxs.set i c } }

/-- The state with a context changed. -/
def updateCtx (i : Fin 4) (f : Ctx → Ctx) (s : State) : State := setCtx i (f (ctxOf s i)) s

/-- The number of open contexts (R105, R170). -/
def openCount (s : State) : Nat := (ctxIds.filter (fun i => (ctxOf s i).state ≠ .idle)).length

/-- The lowest-numbered IDLE context (R108, R116). -/
def idleCtx (s : State) : Option (Fin 4) := ctxIds.find? (fun i => (ctxOf s i).state = .idle)

/-- The opening gate (R107). -/
def gateOpen (s : State) : Bool :=
  running s && s.cat.stagingState = .fetching && !s.cat.frozen && !s.fetch.hold

/-- A held ASK is submitted, and contexts are opened, while the gate is open and the link JOINING or ACTIVE (R108, R110,
R129). -/
def mayAsk (s : State) : Bool := gateOpen s && linkSends s.line.link

/-- A staging block is eligible (R108). -/
def eligible (s : State) (b : Block) : Bool :=
  let r := stagingRec s
  (if r.blocks[(0 : Block)] = .verified then
      b.val ≠ 0 && (match r.count with | some n => b.val ≤ n | none => false)
    else b.val = 0) &&
  (r.blocks[b] = .unknown || r.blocks[b] = .blank) &&
  ctxIds.all (fun i => (ctxOf s i).state = .idle || (ctxOf s i).block ≠ b) &&
  s.fetch.deferral.all (fun d => d.block ≠ b)

/-- The lowest-numbered eligible block (R108). -/
def firstEligible (s : State) : Option Block :=
  ((List.range 256).map (Fin.ofNat 256)).find? (eligible s)

/-! ## Asking -/

/-- A transmit queue entry is the ASK of a context. -/
def isAskOf (i : Fin 4) (e : TxEntry) : Bool := e.owner = .fetch i

/-- The holder with the greatest last-asked age, the earliest of equals (R111). -/
def longestUnasked (ps : List Peer) : Option Peer :=
  ps.foldl (fun best p => match best with
    | none => some p
    | some q => if q.asked < p.asked then some p else best) none

/-- The target of an ASK (R111). -/
def askTarget (s : State) (c : Ctx) : Addr :=
  let held := (longestUnasked (s.notice.peers.filter
    (fun p => p.tally < 3 && p.holds c.key c.block (stagingRec s).count))).map Peer.addr
  match c.server with
  | some a =>
    (match findPeer s a with
      | some p => if p.tally < 3 then a else held.getD 0
      | none => held.getD 0)
  | none => held.getD 0

/-- The submission of a context's ASK (R112); on FULL or NO-LINK the ASK is held. -/
def submitAsk (i : Fin 4) (s : State) : State :=
  let c := ctxOf s i
  let f : Frame := .ask (askTarget s c) c.key c.block c.wanted
  if txAnswer s.line f = .accepted then
    setCtx i { c with asked := askTarget s c, askQueued := true } (txSubmit f (.fetch i) s)
  else setCtx i { c with asked := askTarget s c } s

/-- Held ASKs are submitted in order of context number (R112, R128, R129). -/
def submitHeld (s : State) : State :=
  ctxIds.foldl (fun t i =>
    if (ctxOf t i).state = .asking && !(ctxOf t i).askQueued && mayAsk t then submitAsk i t else t) s

/-- The job in service is a context's own, not an orphan. -/
def inServiceFor (s : State) (i : Fin 4) : Bool :=
  match s.flash.service with
  | none => false
  | some v =>
    !v.orphan && (match v.job with
      | .eraseUnit (.fetch j) _ _ => i = j
      | .programSegment (.fetch j) _ _ _ _ => i = j
      | .verifyBlock (.fetch j) _ _ _ _ => i = j
      | _ => false)

/-- A queued job is a context's. -/
def isJobOf (i : Fin 4) : Job → Bool
  | .eraseUnit (.fetch j) _ _ => i = j
  | .programSegment (.fetch j) _ _ _ _ => i = j
  | .verifyBlock (.fetch j) _ _ _ _ => i = j
  | _ => false

/-- The job in service becomes an orphan (R131). -/
def orphanService (s : State) : State :=
  { s with flash := { s.flash with service := s.flash.service.map (fun v => { v with orphan := true }) } }

/-- The release of a context (R105). -/
def releaseCtx (i : Fin 4) (s : State) : State :=
  let c := ctxOf s i
  let taken := c.job ≠ .none && inServiceFor s i
  let held := if taken && c.job = .program then min 1 c.buffers.length else 0
  let t := txGiveUp (isAskOf i) (withdrawJobs .fetch (isJobOf i) (if taken then orphanService s else s))
  let u := setCtx i .cleared t
  { u with fetch := { u.fetch with
      poolFree := u.fetch.poolFree + (c.buffers.length - held), poolInFlight := u.fetch.poolInFlight + held } }

/-- The deferral list with a block added (R127). -/
def deferralAdd (ds : List Deferral) (b : Block) : List Deferral :=
  (if 8 ≤ ds.length then ds.drop 1 else ds) ++ [{ block := b, left := 10000 }]

/-- A context's block is deferred (R126). -/
def deferBlock (i : Fin 4) (s : State) : State :=
  let b := (ctxOf s i).block
  let t := releaseCtx i (blockEvent .givenUp b s)
  raise .blockDeferred (byteDetail (BitVec.ofNat 8 b.val))
    { t with fetch := { t.fetch with deferral := deferralAdd t.fetch.deferral b } }

/-- A context that enters ASKING submits its ASK: while the gate is open, in JOINING and ACTIVE (R110), and in LISTEN-ONLY
and CLASH, where the answer is NO-LINK (R129). -/
def submitsAsk (s : State) : Bool := gateOpen s && s.line.link ≠ .offline

/-- An entry to ASKING (R110, R129). -/
def enterAsking (i : Fin 4) (s : State) : State :=
  let c := ctxOf s i
  if 5 ≤ c.tries then deferBlock i s
  else
    let t := setCtx i { c with
      state := .asking, tries := c.tries + 1, wanted := ~~~ c.programmed, endIndex := none, askQueued := false,
      claimLeft := 0, silenceLeft := 0 } s
    if submitsAsk t then submitAsk i t else t

/-! ## Opening -/

/-- An ERASE UNIT submitted for a context's block (R109, R116, R125). -/
def submitErase (i : Fin 4) (b : Block) (s : State) : State :=
  submit .fetch (.eraseUnit (.fetch i) (stagingSlot s) b) (blockEvent .eraseSubmitted b s)

/-- A context as opened on a block (R109, R116). -/
def Ctx.opened (b : Block) (k : Key) : Ctx := { Ctx.cleared with block := b, key := k, wanted := 0xFFFF }

/-- A context opened on an eligible block (R109). -/
def openOn (i : Fin 4) (b : Block) (s : State) : State :=
  let c := Ctx.opened b (keySent (stagingRec s).key)
  if stagingBlock s b = .unknown then
    submitErase i b (setCtx i { c with state := .preparing, job := .erase } s)
  else enterAsking i (setCtx i c s)

/-- One opening of R108, when its conditions hold. -/
def openOne (s : State) : State :=
  if mayAsk s then
    match idleCtx s, firstEligible s with
    | some i, some b => openOn i b s
    | _, _ => s
  else s

/-- The opening rule (R108): at most four contexts can be opened. -/
def openContexts (s : State) : State := openOne (openOne (openOne (openOne s)))

/-- Held ASKs are submitted and opening resumes (R108, R112, R128, R129). -/
def fetchFollow (s : State) : State := openContexts (submitHeld s)

/-! ## Programs, settling and verify -/

/-- The submission of a context's next program (R120). -/
def programNext (i : Fin 4) (s : State) : State :=
  let c := ctxOf s i
  match c.buffers with
  | [] => s
  | (g, d) :: _ =>
    if c.job = .none && (stagingBlock s c.block = .blank || stagingBlock s c.block = .filling) then
      submit .fetch (.programSegment (.fetch i) (stagingSlot s) c.block g d)
        (blockEvent .programSubmitted c.block (setCtx i { c with job := .program } s))
    else s

/-- The expected value of a staging block's verify under a key (R47, R125, R185). -/
def expectedOf (s : State) (k : Key) (b : Block) : Expected :=
  if b = 0 then .manifest k else .check (checkEntry (stagingRec s).checks b.val)

/-- The evaluation of a SETTLING context with nothing outstanding (R124, R125). -/
def evaluate (i : Fin 4) (s : State) : State :=
  let c := ctxOf s i
  if c.state = .settling && c.buffers.isEmpty && c.job = .none then
    if c.programmed = 0xFFFF then
      submit .fetch (.verifyBlock (.fetch i) (stagingSlot s) c.block (expectedOf s c.key c.block) none)
        (blockEvent .verifySubmitted c.block (setCtx i { c with state := .verifying, job := .verify } s))
    else enterAsking i s
  else s

/-- The end of a serve for a RECEIVING context (R123). -/
def serveEnded (i : Fin 4) (s : State) : State :=
  evaluate i (updateCtx i (fun c => { c with state := .settling, endIndex := none, silenceLeft := 0 }) s)

/-! ## Hearing OFFERs and SEGMENTs -/

/-- The mask of the segments in a context's buffer list. -/
def Ctx.buffered (c : Ctx) : Mask := c.buffers.foldl (fun m e => m ||| segBit e.1) 0

/-- The segments a context still needs (R115). -/
def Ctx.needs (c : Ctx) : Mask := c.wanted &&& ~~~ c.programmed &&& ~~~ c.buffered

/-- An OFFER counts for a context (R115). -/
def Ctx.counts (c : Ctx) (k : Key) (b : Block) (m : Mask) : Bool :=
  c.state ≠ .idle && c.state ≠ .verifying && c.key = k && c.block = b && (m &&& c.needs) ≠ 0

/-- A context enters RECEIVING on an OFFER (R115, R116). -/
def Ctx.receive (c : Ctx) (src : Addr) (end_ : Seg) : Ctx :=
  { c with state := .receiving, server := some src, endIndex := some end_, silenceLeft := 50, claimLeft := 0, askQueued := false }

/-- An OFFER heard by one context (R115). -/
def hearOffer (src : Addr) (k : Key) (b : Block) (m : Mask) (i : Fin 4) (s : State) : State :=
  let c := ctxOf s i
  if c.counts k b m then
    if c.state = .receiving then
      setCtx i (c.receive src (match c.endIndex with | some e => max e (highestSeg m) | none => highestSeg m)) s
    else if c.state = .asking then setCtx i (c.receive src (highestSeg m)) (txGiveUp (isAskOf i) s)
    else setCtx i (c.receive src (highestSeg m)) s
  else if c.state = .receiving && c.key = k && c.block = b then setCtx i { c with silenceLeft := 50 } s
  else s

/-- An overheard serve joined (R116). -/
def joinServe (src : Addr) (k : Key) (b : Block) (m : Mask) (s : State) : State :=
  match idleCtx s with
  | none => s
  | some i =>
    if gateOpen s && (stagingRec s).key = some k && eligible s b then
      let c := (Ctx.opened b k).receive src (highestSeg m)
      if stagingBlock s b = .unknown then submitErase i b (setCtx i { c with job := .erase } s)
      else setCtx i c s
    else s

/-- An OFFER delivered to the fetch engine (R115, R116). -/
def fetchOffer (src : Addr) (k : Key) (b : Block) (m : Mask) (s : State) : State :=
  fetchFollow (joinServe src k b m (ctxIds.foldl (fun t i => hearOffer src k b m i t) s))

/-- The context in CLAIMING or RECEIVING that has a block (R118). -/
def receiverOf (s : State) (b : Block) : Option (Fin 4) :=
  ctxIds.find? (fun i => ((ctxOf s i).state = .claiming || (ctxOf s i).state = .receiving) && (ctxOf s i).block = b)

/-- Steps 3 to 6 of R118 and R119: the segment is discarded, accepted into a pool buffer, or dropped. -/
def takeSegment (i : Fin 4) (g : Seg) (d : List Byte) (s : State) : State :=
  let c := ctxOf s i
  if !hasSeg c.wanted g then s
  else if hasSeg c.programmed g || c.buffers.any (fun e => e.1 = g) then s
  else if s.fetch.poolFree = 0 then { s with fetch := { s.fetch with overrun := count16 s.fetch.overrun } }
  else
    let t := setCtx i { c with buffers := c.buffers ++ [(g, d)] } s
    programNext i { t with fetch := { t.fetch with poolFree := t.fetch.poolFree - 1 } }

/-- A context begins or goes on receiving at a SEGMENT (R118, steps 1 and 2). -/
def Ctx.heardSegment (c : Ctx) : Ctx :=
  { c with state := .receiving, endIndex := if c.state = .claiming then some 15 else c.endIndex, claimLeft := 0, silenceLeft := 50 }

/-- A SEGMENT delivered to the fetch engine (R118, R123). -/
def fetchSegment (k : Key) (b : Block) (g : Seg) (d : List Byte) (s : State) : State :=
  match receiverOf s b with
  | none => s
  | some i =>
    if (stagingRec s).key = some k then
      let t := takeSegment i g d (updateCtx i Ctx.heardSegment s)
      if (ctxOf t i).endIndex = some g then fetchFollow (serveEnded i t) else t
    else s

/-! ## Results, reports, hold, abandonment -/

/-- The head buffer of a context freed (R117, R121). -/
def freeHead (i : Fin 4) (s : State) : State :=
  let c := ctxOf s i
  let t := setCtx i { c with buffers := c.buffers.drop 1 } s
  { t with fetch := { t.fetch with poolFree := t.fetch.poolFree + min 1 c.buffers.length } }

/-- The buffer held for a program in flight freed (R117, R131). -/
def freeInFlight (s : State) : State :=
  { s with fetch := { s.fetch with
      poolFree := s.fetch.poolFree + min 1 s.fetch.poolInFlight, poolInFlight := s.fetch.poolInFlight - 1 } }

/-- The report SENT for a context's live ASK (R113). -/
def askSent (i : Fin 4) (s : State) : State :=
  if (ctxOf s i).state = .asking then
    updateCtx i (fun c => { c with state := .claiming, askQueued := false, claimLeft := 120 }) s
  else s

/-- The report UNSENT for a context's live ASK (R113). -/
def askUnsent (i : Fin 4) (s : State) : State :=
  if (ctxOf s i).state = .asking then enterAsking i (updateCtx i (fun c => { c with server := none, askQueued := false }) s)
  else s

/-- The report CLEARED for a context's ASK: it is held (R113). -/
def askCleared (i : Fin 4) (s : State) : State := updateCtx i (fun c => { c with askQueued := false }) s

/-- A context's own ASK is on the line. -/
def askOnLine (s : State) (i : Fin 4) : Bool := s.line.queue.any (fun e => isAskOf i e && e.live && e.onLine)

/-- The queued ASK of a context in ASKING is withdrawn and held; one on the line stays, to be reported as usual (R128). -/
def holdAsk (i : Fin 4) (s : State) : State :=
  if (ctxOf s i).state = .asking && (ctxOf s i).askQueued then
    let t := txWithdraw (isAskOf i) s
    if askOnLine t i then t else askCleared i t
  else s

/-- The gate closes for HOLD or FROZEN (R128). -/
def closeGate (s : State) : State := ctxIds.foldl (fun t i => holdAsk i t) s

/-- The fetch engine abandons its work (R130). -/
def abandon (s : State) : State :=
  let t := ctxIds.foldl (fun t i => if (ctxOf t i).state = .idle then t else releaseCtx i t) s
  { t with fetch := { t.fetch with deferral := [] } }

end Sys2Proof.Machine
end

