-- ==== Sys2Proof/Machine/Serve.lean ====
section
/-! DEFINITION. The serve engine's operations: OFFER submission, sending, suppression, merging and cancellation
(chapter Serve Engine). The commands READ_SEGMENT and SERVE_DELAY are built from them. -/

namespace Sys2Proof.Machine

/-- The state with the serve queue replaced. -/
def setServeQueue (q : List ServeEntry) (s : State) : State := { s with serve := { s.serve with queue := q } }

/-- An entry is for a key and block. -/
def ServeEntry.isFor (e : ServeEntry) (k : Key) (b : Block) : Bool := e.key = k && e.block = b

/-- The serve queue with the entries for a key and block changed; there is at most one (R133). -/
def updateEntry (k : Key) (b : Block) (f : ServeEntry → ServeEntry) (s : State) : State :=
  setServeQueue (s.serve.queue.map (fun e => if e.isFor k b then f e else e)) s

/-- The serve queue without the entry for a key and block; the others keep their order (R133). -/
def removeEntry (k : Key) (b : Block) (s : State) : State :=
  setServeQueue (s.serve.queue.filter (fun e => !e.isFor k b)) s

/-- The entry for a key and block. -/
def findEntry (s : State) (k : Key) (b : Block) : Option ServeEntry := s.serve.queue.find? (fun e => e.isFor k b)

/-- The SENDING entry (R133). -/
def sendingEntry (s : State) : Option ServeEntry := s.serve.queue.find? (fun e => e.state = .sending)

/-- An outgoing buffer. -/
def bufOf (s : State) : OutBufId → OutBuf
  | .ob0 => s.serve.ob0
  | .ob1 => s.serve.ob1

/-- The state with an outgoing buffer replaced. -/
def setBuf (i : OutBufId) (v : OutBuf) (s : State) : State :=
  match i with
  | .ob0 => { s with serve := { s.serve with ob0 := v } }
  | .ob1 => { s with serve := { s.serve with ob1 := v } }

/-- A buffer is held for the live entry of a key and block (R134). -/
def OutBuf.heldFor (v : OutBuf) (k : Key) (b : Block) : Bool :=
  match v with
  | .free => false
  | .reading k' b' _ live => live && k' = k && b' = b
  | .frame k' b' _ _ live => live && k' = k && b' = b

/-- A transmit queue entry is the OFFER of a serve entry; one that its producer has given up is not. -/
def isOfferOf (k : Key) (b : Block) (e : TxEntry) : Bool :=
  match e.frame with
  | .offer k' b' _ => e.live && e.owner = .serveOffer && k' = k && b' = b
  | _ => false

/-- The OFFER of a serve entry is on the line. -/
def offerOnLine (s : State) (k : Key) (b : Block) : Bool := s.line.queue.any (fun e => isOfferOf k b e && e.onLine)

/-- The serve delay: (station address mod 8) × 3 ms (R139). -/
def serveDelay (s : State) : Nat := s.startUp.straps.address.toNat % 8 * 3

/-- The OFFER submission of R140: for the oldest entry, when it is OFFERING, nothing is SENDING and no OFFER is queued. -/
def offerNext (s : State) : State :=
  match s.serve.queue with
  | [] => s
  | e :: es =>
    if (e :: es).any (fun x => x.state = .sending || x.offerQueued) || e.state ≠ .offering then s
    else if txAnswer s.line (.offer e.key e.block e.mask) = .accepted then
      setServeQueue ({ e with offered := e.mask, offerQueued := true } :: es)
        (txSubmit (.offer e.key e.block e.mask) .serveOffer s)
    else s

/-- The queued OFFER of an entry is withdrawn and a new one with the entry's mask submitted (R137, R142). -/
def reoffer (k : Key) (b : Block) (mask : Mask) (s : State) : State :=
  let t := txGiveUp (isOfferOf k b) s
  if txAnswer t.line (.offer k b mask) = .accepted then
    updateEntry k b (fun e => { e with mask := mask, offered := mask, offerQueued := true })
      (txSubmit (.offer k b mask) .serveOffer t)
  else updateEntry k b (fun e => { e with mask := mask, offerQueued := false }) t

/-- A queued READ SEGMENT into a buffer. -/
def readsInto (i : OutBufId) : Job → Bool
  | .readSegment _ _ _ j => i = j
  | _ => false

/-- A buffer after the cancellation of the entry for a key and block (R147, steps 2 and 3): a queued read or frame is
withdrawn and the buffer freed; a read taken or a frame on the line runs on, no longer live. -/
def cancelBuffer (k : Key) (b : Block) (i : OutBufId) (s : State) : State :=
  match bufOf s i with
  | .reading k' b' g true =>
    if k' = k ∧ b' = b then
      if s.flash.serveQ.any (readsInto i) then setBuf i .free (withdrawJobs .serve (readsInto i) s)
      else setBuf i (.reading k' b' g false) s
    else s
  | .frame k' b' g d true =>
    if k' = k ∧ b' = b then
      if s.line.queue.any (fun e => e.owner = .serveBuffer i && e.onLine) then
        setBuf i (.frame k' b' g d false) (txGiveUp (fun e => e.owner = .serveBuffer i) s)
      else setBuf i .free (txWithdraw (fun e => e.owner = .serveBuffer i) s)
    else s
  | _ => s

/-- The cancellation of the entry for a key and block (R147). -/
def cancelEntry (k : Key) (b : Block) (s : State) : State :=
  offerNext (cancelBuffer k b .ob1 (cancelBuffer k b .ob0 (txGiveUp (isOfferOf k b) (removeEntry k b s))))

/-- The cancellation of every entry that a test names, oldest first (R59 step 3, R148, R149). -/
def cancelEntries (p : ServeEntry → Bool) (s : State) : State :=
  (s.serve.queue.filter p).foldl (fun t e => cancelEntry e.key e.block t) s

/-- The cancellation of every entry for a slot's key, when it holds one (R59 step 3, R66 step 3, R67). -/
def cancelKey (k : Option Key) (s : State) : State :=
  match k with
  | none => s
  | some k => cancelEntries (fun e => e.key = k) s

/-- The buffer filled first: OB0, then OB1 (R143). -/
def freeBuffer (s : State) : Option OutBufId :=
  if s.serve.ob0 = .free then some .ob0 else if s.serve.ob1 = .free then some .ob1 else none

/-- One buffer filled for the SENDING entry (R143): the slot is resolved under R144, or the entry cancelled. -/
def fillBuffer (s : State) : State :=
  match sendingEntry s, freeBuffer s with
  | some e, some i =>
    if e.nextIndex < 16 then
      match holderOf s e.key with
      | some x =>
        if (slotRec s x).blocks[e.block] = .verified then
          let g : Seg := Fin.ofNat 16 e.nextIndex
          submit .serve (.readSegment x e.block g i)
            (updateEntry e.key e.block (fun f => { f with nextIndex := lowestFrom f.mask (e.nextIndex + 1) })
              (setBuf i (.reading e.key e.block g true) s))
        else cancelEntry e.key e.block s
      | none => cancelEntry e.key e.block s
    else s
  | _, _ => s

/-- The end of a serve (R146): next index 16 and no buffer held for the SENDING entry. -/
def endServe (s : State) : State :=
  match sendingEntry s with
  | none => s
  | some e =>
    if 16 ≤ e.nextIndex && !s.serve.ob0.heldFor e.key e.block && !s.serve.ob1.heldFor e.key e.block then
      offerNext (removeEntry e.key e.block s)
    else s

/-- The serve goes on after a buffer has been freed (R143, R146). -/
def serveAdvance (s : State) : State := endServe (fillBuffer (fillBuffer s))

/-- An entry enters SENDING (R141, R143). -/
def startSending (k : Key) (b : Block) (s : State) : State :=
  serveAdvance (updateEntry k b (fun e =>
    { e with state := .sending, offerQueued := false, nextIndex := lowestFrom e.mask 0 }) s)

/-- The report for a live OFFER (R141). -/
def offerReport (sent : Bool) (k : Key) (b : Block) (s : State) : State :=
  if sent then startSending k b s else offerNext (removeEntry k b s)

/-- The report SENT or UNSENT for a SEGMENT frame (R146, R147). -/
def segmentReport (sent : Bool) (i : OutBufId) (s : State) : State :=
  let t := setBuf i .free s
  serveAdvance (if sent then { t with serve := { t.serve with served := count16 t.serve.served } } else t)

/-- The result of a READ SEGMENT: `data` on DONE, none on FAILED (R145). -/
def readResult (i : OutBufId) (data : Option (List Byte)) (s : State) : State :=
  match bufOf s i, data with
  | .reading k b g true, some d =>
    if txAnswer s.line (.segment k b g d) = .accepted then
      setBuf i (.frame k b g d true) (txSubmit (.segment k b g d) (.serveBuffer i) s)
    else serveAdvance (setBuf i .free s)
  | .reading _ _ _ _, _ => serveAdvance (setBuf i .free s)
  | _, _ => s

/-- An entry enters OFFERING (R139). -/
def enterOffering (k : Key) (b : Block) (s : State) : State :=
  offerNext (updateEntry k b (fun e => { e with state := .offering, delayLeft := 0 }) s)

/-- The segments above an index (R138). -/
def maskAbove (i : Nat) : Mask := (0xFFFF : Mask) <<< (i + 1)

/-- An eligible ASK (R135). -/
def askEligible (s : State) (target : Addr) (k : Key) (b : Block) : Bool :=
  s.startUp.straps.serve && s.line.link = .active && (target = 0 || target = s.startUp.straps.address) &&
  (match holderOf s k with
    | none => false
    | some x => (slotRec s x).blocks[b] = .verified && !reclaimingSlot s x)

/-- The merge of an eligible ASK into its entry (R137, R138). -/
def mergeAsk (e : ServeEntry) (mask : Mask) (s : State) : State :=
  let union := e.mask ||| mask
  if e.state = .sending then
    updateEntry e.key e.block (fun f =>
      { f with mask := if f.nextIndex < 16 then f.mask ||| (mask &&& maskAbove f.nextIndex) else f.mask }) s
  else if e.offerQueued && !offerOnLine s e.key e.block && (union &&& ~~~ e.offered) ≠ 0 then
    reoffer e.key e.block union s
  else updateEntry e.key e.block (fun f => { f with mask := union }) s

/-- The fields of a new entry (R136), with the station's serve delay. -/
def newEntry (k : Key) (b : Block) (mask : Mask) (delay : Nat) : ServeEntry :=
  { key := k, block := b, mask := mask, state := .waiting, delayLeft := delay, offerQueued := false, offered := 0,
    nextIndex := 16 }

/-- The new entry of an eligible ASK (R136). -/
def createEntry (k : Key) (b : Block) (mask : Mask) (s : State) : State :=
  if 8 ≤ s.serve.queue.length then { s with serve := { s.serve with refused := count16 s.serve.refused } }
  else
    let t := setServeQueue (s.serve.queue ++ [newEntry k b mask (serveDelay s)]) s
    if serveDelay s = 0 then enterOffering k b t else t

/-- An ASK delivered to the serve engine (R135 to R138). -/
def serveAsk (target : Addr) (k : Key) (b : Block) (mask : Mask) (s : State) : State :=
  if askEligible s target k b then
    match findEntry s k b with
    | some e => mergeAsk e mask s
    | none => createEntry k b mask s
  else s

/-- An OFFER heard: suppression of this station's entry for its key and block (R142). -/
def suppress (k : Key) (b : Block) (mask : Mask) (s : State) : State :=
  match findEntry s k b with
  | none => s
  | some e =>
    if e.state = .sending || (e.offerQueued && offerOnLine s k b) then s
    else
      let rest := e.mask &&& ~~~ mask
      if rest = 0 then offerNext (removeEntry k b (txGiveUp (isOfferOf k b) s))
      else if rest = e.mask then s
      else if e.offerQueued then offerNext (reoffer k b rest s)
      else updateEntry k b (fun f => { f with mask := rest }) s

end Sys2Proof.Machine
end

