-- ==== Sys2Proof/Machine/Catalogue.lean ====
section
/-! DEFINITION. The image catalogue's operations: verified blocks and marks, appends, FROZEN, candidate keys, reclaim,
and the ends of the record procedures (chapter Image Catalogue). -/

namespace Sys2Proof.Machine

/-- The state with the staging slot record changed. -/
def updateStaging (f : SlotRecord → SlotRecord) (s : State) : State := setSlot (stagingSlot s) (f (stagingRec s)) s

/-- The state with the staging state set (R44). -/
def setStagingState (v : StagingState) (s : State) : State := { s with cat := { s.cat with stagingState := v } }

/-- The state with the open record procedure set (R50). -/
def setProcedure (p : Procedure) (s : State) : State := { s with cat := { s.cat with procedure := p } }

/-- The state with the pending target set (R57). -/
def setTarget (t : Option (Key × Addr)) (s : State) : State := { s with cat := { s.cat with target := t } }

/-- A slot record with its key, count and check list removed (R47). -/
def SlotRecord.keyless (r : SlotRecord) : SlotRecord := { r with key := none, count := none, checks := [] }

/-- A slot record whose blocks that are not BLANK are UNKNOWN (R59 step 4, R66 step 4, R68). -/
def SlotRecord.unknowing (r : SlotRecord) : SlotRecord :=
  { r with blocks := mapVec (fun v => if v = .blank then .blank else .unknown) r.blocks }

/-- A block state after a failed LOAD END: VERIFIED and VERIFYING become FILLING, UNUSED becomes UNKNOWN (R67, R186). -/
def unloadedState : BlockState → BlockState
  | .verified => .filling
  | .verifying => .filling
  | .unused => .unknown
  | v => v

/-- A slot record after a failed LOAD END: block states undone, no key, count or check list (R67, R186). -/
def SlotRecord.unloaded (r : SlotRecord) : SlotRecord := { r.keyless with blocks := mapVec unloadedState r.blocks }

/-- A block of the staging slot becomes VERIFIED (R46, R47, R53). -/
def blockVerified (b : Block) (m : Option Manifest) (s : State) : State :=
  if stagingBlock s b ≠ .verifying then s
  else
    let t := blockEvent .verifyPass b s
    let u := match b.val, m with
      | 0, some m => updateStaging (fun r => { r.unuseAbove m.count with count := some m.count, checks := m.checks }) t
      | _, _ => t
    let v := if u.cat.frozen then u else addWork (.setMark (stagingSlot u) b) u
    if v.cat.stagingState = .fetching && (stagingRec v).whole then
      raise .stagingComplete (versionDetail (versionOf (stagingRec v).key)) (setStagingState .complete v)
    else v

/-- The undoing of a LOAD END that failed (R67, R148, R186). -/
def loadUndo (s : State) : State :=
  updateStaging SlotRecord.unloaded (cancelKey (stagingRec s).key (setStagingState .loading s))

/-- The staging state and version of ACCEPT's refusals (R178, R219). -/
def stagingPayload (s : State) : List Byte :=
  stagingCode s.cat.stagingState :: bytes16 (versionOf (stagingRec s).key)

/-- The open record procedure ends as failed (R54). -/
def procedureFailed (s : State) : State :=
  let t := setProcedure .none s
  match s.cat.procedure with
  | .none => s
  | .reclaim => t
  | .switch revert =>
    let u := setStagingState (if revert then .retired else .complete) t
    answer .worn (stagingPayload u) u
  | .floor => answer .worn (bytes16 s.cat.recorded.floor) t
  | .loadBegin => answer .worn [] t
  | .loadEnd => answer .worn [] (loadUndo t)
  | .wipe step _ => setProcedure (.wipe step true) s

/-- FROZEN is set (R54); the fetch engine's gate closes (R128), and no repair mark stays outstanding (R201). -/
def setFrozen (s : State) : State :=
  closeGate (procedureFailed
    { s with cat := { s.cat with frozen := true, work := [] }, startUp := { s.startUp with repairs := 0 } })

/-- An append added to the record work list (R51). -/
def addAppend (r : CommitRecord) (s : State) : State :=
  if 0xFFFFFFFE ≤ s.cat.highSeq then
    setFrozen (raise .arrayFault (faultDetail (controlNumber s.cat.commitUnit.unit) 8) s)
  else
    let r' := { r with seq := s.cat.highSeq + 1 }
    if s.cat.nextPos < 32 then
      addWork (.appendRecord s.cat.commitUnit s.cat.nextPos (.record r'))
        { s with cat := { s.cat with highSeq := s.cat.highSeq + 1, nextPos := s.cat.nextPos + 1 } }
    else
      let u := s.cat.commitUnit.other
      addWork (.appendRecord u 0 (.record r')) (addWork (.eraseControl u.unit)
        { s with cat := { s.cat with highSeq := s.cat.highSeq + 1, commitUnit := u, nextPos := 1 } })

/-- A job is a SET MARK of a slot's marks row. -/
def isMarkOf (x : Slot) : Job → Bool
  | .setMark y _ => x = y
  | _ => false

/-- The SET MARKs of a row removed from the record work list and the record queue (R53). -/
def dropMarks (x : Slot) (s : State) : State :=
  withdrawJobs .record (isMarkOf x) { s with cat := { s.cat with work := s.cat.work.filter (fun j => !isMarkOf x j) } }

/-- The start of a reclaim for a key (R59). -/
def startReclaim (k : Key) (s : State) : State :=
  let old := (stagingRec s).key
  let s1 := updateStaging (fun r => { r.keyless with key := some k }) (setStagingState .reclaiming (setProcedure .reclaim s))
  let s2 := abandon s1
  let s3 := cancelKey old s2
  let s4 := updateStaging SlotRecord.unknowing s3
  let s5 := dropMarks (stagingSlot s4) s4
  let s6 := addWork (.eraseControl (marksRow (stagingSlot s5))) s5
  addAppend { s6.cat.recorded with stagingKey := some k, role := .fetching } s6

/-- A newer candidate is taken up (R57). -/
def takeUp (k : Key) (src : Addr) (s : State) : State :=
  let settled := match s.cat.stagingState with
    | .empty => true
    | .fetching => true
    | .complete => true
    | .retired => true
    | .declined => true
    | _ => false
  if settled && s.cat.procedure = .none then startReclaim k s
  else if !settled || s.cat.procedure = .floor then
    match s.cat.target with
    | none => setTarget (some (k, src)) s
    | some (p, _) => if p.version < k.version then setTarget (some (k, src)) s else s
  else s

/-- The keys the station holds or has pending (R56, items 1 and 2). -/
def heldKeys (s : State) : List Key :=
  (activeRec s).key.toList ++ (stagingRec s).key.toList ++ (s.cat.target.map Prod.fst).toList

/-- A candidate is newer (R56, item 3). -/
def candidateNewer (s : State) (k : Key) : Bool :=
  activeVersion s < k.version && s.cat.recorded.declined < k.version &&
  (match s.cat.stagingState with
    | .fetching => versionOf (stagingRec s).key < k.version
    | .complete => versionOf (stagingRec s).key < k.version
    | .loading => versionOf (stagingRec s).key < k.version
    | _ => true)

/-- The judgement of a candidate key (R56). -/
def judge (k : Key) (src : Addr) (s : State) : State :=
  if !running s || s.cat.frozen || !ofFamily s k then s
  else if (heldKeys s).contains k then s
  else if (heldKeys s).any (fun h => h.version = k.version) then raise .digestConflict (byteDetail (src.zeroExtend 8)) s
  else if candidateNewer s k then takeUp k src s
  else s

/-- The pending target judged anew (R58). -/
def judgeTarget (s : State) : State :=
  match s.cat.target with
  | none => s
  | some (k, src) => if s.cat.frozen then s else judge k src (setTarget none s)

/-- The reclaim's append has returned DONE (R61). -/
def reclaimAppended (s : State) : State :=
  let recordedKey := s.cat.recorded.stagingKey
  let t := raise .targetAdopted (versionDetail (versionOf recordedKey)) s
  let settle := fetchFollow (setTarget none (setStagingState .fetching (setProcedure .none t)))
  match s.cat.target with
  | some (k, _) =>
    if versionOf recordedKey < k.version then
      addAppend { t.cat.recorded with stagingKey := some k, role := .fetching }
        (setTarget none (updateStaging (fun r => { r with key := some k }) t))
    else settle
  | none => settle

/-- The switch's append has returned DONE: the roles swap (R64). -/
def switchAppended (revert : Bool) (s : State) : State :=
  let staging : StagingState :=
    if revert then .declined else if s.cat.activeState = .none then .empty else .retired
  let t := { s with cat := { s.cat with
    activeSlot := stagingSlot s, activeState := .present, stagingState := staging, procedure := .none } }
  let v := versionOf (activeRec t).key
  judgeTarget (answer .ok (slotCode t.cat.activeSlot :: bytes16 v) (raise .switched (versionDetail v) t))

/-- The floor append has returned DONE (R65). -/
def floorAppended (s : State) : State :=
  judgeTarget (answer .ok (bytes16 s.cat.recorded.floor) (setProcedure .none s))

/-- The LOAD END append has returned DONE (R67, R186). -/
def loadEndAppended (s : State) : State :=
  let t := setStagingState .complete (setProcedure .none s)
  let r := stagingRec t
  let v := versionOf r.key
  judgeTarget (answer .ok (bytes16 v ++ bytes32 (keySent r.key).digest ++ [BitVec.ofNat 8 (r.count.getD 0)])
    (raise .stagingComplete (versionDetail v) t))

/-- An append outside WIPE has returned DONE: the recorded view, then the procedure that added it (R52). -/
def appendDone (r : CommitRecord) (s : State) : State :=
  let t := { s with cat := { s.cat with recorded := r } }
  match s.cat.procedure with
  | .reclaim => reclaimAppended t
  | .switch revert => switchAppended revert t
  | .floor => floorAppended t
  | .loadBegin => answer .ok [] (setProcedure .none t)
  | .loadEnd => loadEndAppended t
  | _ => t

end Sys2Proof.Machine
end

