-- ==== Sys2Proof/Machine/Line.lean ====
section
/-! DEFINITION. The line controller's operations: link transitions, the clearing of the transmit queue, the end of an
attempt and its reports, the choice at an idle, and reception (chapter The Distribution Line). -/

namespace Sys2Proof.Machine

/-! ## Link state -/

/-- The link state changed, with LINK-CHANGE raised (R84). -/
def setLink (l : LinkState) (s : State) : State :=
  raise .linkChange (byteDetail (linkCode l)) { s with line := { s.line with link := l } }

/-- The link enters JOINING (R85, R86, R129). -/
def enterJoining (s : State) : State :=
  let t := setLink .joining s
  fetchFollow { t with line := { t.line with joinLeft := some 300, listen := .stopped } }

/-- The link enters ACTIVE: the join timer stops, and the periodic timer runs as though from the submission of the
echoed NOTICE (R86, R94, R129). -/
def enterActive (s : State) : State :=
  let t := setLink .active s
  fetchFollow { t with
    line := { t.line with joinLeft := none }
    notice := { t.notice with periodicLeft := some (2000 - t.notice.spacing.getD 0) } }

/-- The line report for a RELEASE: PUBLISH is answered (R188, R218). -/
def publishReport (code : Byte) (s : State) : State :=
  if s.port.command = some .publish then answer .ok [code] s else s

/-- The report CLEARED for an entry (R89). -/
def clearedReport (s : State) (e : TxEntry) : State :=
  match e.owner with
  | .noticeUnit => s
  | .catalogue => publishReport 2 s
  | .fetch i => if e.live then askCleared i s else s
  | .serveOffer => s
  | .serveBuffer i => setBuf i .free s

/-- The transmit queue cleared of every entry not on the line, each reported CLEARED (R89, step 1). -/
def clearQueue (s : State) : State :=
  (s.line.queue.filter (fun e => !e.onLine)).foldl clearedReport
    { s with line := { s.line with queue := s.line.queue.filter (·.onLine) } }

/-- What LISTEN-ONLY and CLASH do to the other blocks (R89, R94, R149). -/
def quiet (s : State) : State :=
  let t := clearQueue { s with notice := { s.notice with periodicLeft := none, changed := false, owed := false } }
  cancelEntries (fun _ => true) t

/-- The link enters LISTEN-ONLY, with its timer running or held by WIPE (R87). -/
def enterListenOnly (timer : ListenTimer) (s : State) : State :=
  let t := setLink .listenOnly s
  quiet { t with line := { t.line with echoMiss := 0, joinLeft := none, listen := timer } }

/-- The link enters CLASH (R88). -/
def enterClash (s : State) : State :=
  let t := setLink .clash s
  quiet { t with line := { t.line with joinLeft := none, listen := .stopped } }

/-! ## Sending -/

/-- The link state lets an entry be sent (R78, R84). -/
def linkAllows (l : LinkState) (e : TxEntry) : Bool :=
  match l with
  | .active => true
  | .joining => frameClass e.frame = 4
  | _ => false

/-- The class of the entry chosen at an idle: the lowest among those allowed (R78). -/
def chosenClass (s : State) : Option Nat :=
  [0, 1, 2, 3, 4].find? (fun c => s.line.queue.any (fun e => frameClass e.frame = c && linkAllows s.line.link e))

/-- The first entry of a class put on the line (R78). -/
def putOnLine (cls : Nat) : List TxEntry → List TxEntry
  | [] => []
  | e :: es => if frameClass e.frame = cls then { e with onLine := true } :: es else e :: putOnLine cls es

/-- The line is idle: the chosen entry's start bit is sent, or nothing (R69, R73, R78). -/
def lineIdleChoice (s : State) : State :=
  match chosenClass s with
  | none => { s with line := { s.line with idleCount := 10 } }
  | some c => { s with line := { s.line with idleCount := 0, queue := putOnLine c s.line.queue } }

/-- The report SENT or UNSENT of an entry to its producer (R76, R86, R100, R113, R141, R146, R188). -/
def attemptReport (sent : Bool) (e : TxEntry) (s : State) : State :=
  match e.owner, e.frame with
  | .noticeUnit, _ => if sent && s.line.link = .joining then enterActive s else s
  | .catalogue, _ => publishReport (if sent then 0 else 1) s
  | .fetch i, .ask target _ _ _ =>
    let t := if sent then markAsked target s else s
    if e.live then (if sent then askSent i t else askUnsent i t) else t
  | .serveOffer, .offer k b _ => if e.live then offerReport sent k b s else s
  | .serveBuffer i, _ => segmentReport sent i s
  | _, _ => s

/-- An entry its producer has given up, withdrawn as it leaves the line, before it can contend again (R105, R147). -/
def givenUp (e : TxEntry) : Bool :=
  !e.live && (match e.owner with | .fetch _ => true | .serveBuffer _ => true | _ => false)

/-- The withdrawal of a given-up entry: a SEGMENT's buffer is freed, and no report follows (R147). -/
def givenUpReport (e : TxEntry) (s : State) : State :=
  match e.owner with
  | .serveBuffer i => serveAdvance (setBuf i .free s)
  | _ => s

/-- The entry on the line has left it, with the transmit queue as it then stands; the idle count starts again (R69) from the
dominant bit of a lost contention or an abort, or from the delimiter after the echo slot (assumption log 32). -/
def lineLeft (q : List TxEntry) (s : State) : State := { s with line := { s.line with idleCount := 0, queue := q } }

/-- Contention lost: the entry on the line stops being on it and keeps its place and attempt count (R73). One that its
producer has given up is withdrawn before it can contend again, with no report, since a SEGMENT is started only while its
block is VERIFIED (R105, R147, R148; DEDUCED, assumption log 11). -/
def loseContention (e : TxEntry) (s : State) : State :=
  if givenUp e then
    let t := givenUpReport e (lineLeft (s.line.queue.filter (fun x => !x.onLine)) s)
    match e.owner with
    | .fetch _ => fetchFollow t
    | _ => t
  else lineLeft (s.line.queue.map (fun x => { x with onLine := false })) s

/-- The counters and the echo-miss count at the end of an attempt (R76, R83). -/
def countAttempt (echoed : Bool) (line : LineController) : LineController :=
  if echoed then
    { line with framesSent := count16 line.framesSent, echoMiss := if linkSends line.link then 0 else line.echoMiss }
  else
    { line with unechoed := count16 line.unechoed,
                echoMiss := if linkSends line.link then min 16 (line.echoMiss + 1) else line.echoMiss }

/-- An attempt's end decides its entry: echoed, after the last attempt, or when the link lets it make no further one
(R76, R89). -/
def attemptDecides (echoed : Bool) (link : LinkState) (e : TxEntry) : Bool :=
  echoed || 2 ≤ e.attempts || !linkSends link

/-- The transmit queue after the attempt of its entry on the line: the entry is removed, or stays with its count plus 1
(R76). -/
def queueAfterAttempt (gone : Bool) (q : List TxEntry) : List TxEntry :=
  if gone then q.filter (fun e => !e.onLine)
  else q.map (fun e => if e.onLine then { e with onLine := false, attempts := e.attempts + 1 } else e)

/-- The link after an attempt: at an echo-miss count of 16 it enters LISTEN-ONLY (R83, R87). -/
def missedOut (s : State) : State :=
  if linkSends s.line.link && s.line.echoMiss = 16 then enterListenOnly (.running 5000) s else s

/-- The end of the attempt of an entry on the line (R76). At the sixteenth miss the link enters LISTEN-ONLY first and the
report follows, which R76 makes together (DEDUCED, assumption log 30). At the echo of a join NOTICE the link enters ACTIVE
first and an owed NOTICE follows, with the link ACTIVE flag set; R86 and R93 put both in one event and give no order (DESIGN
CHOICE, assumption log 37). -/
def endAttempt (echoed : Bool) (e : TxEntry) (s : State) : State :=
  let decided := attemptDecides echoed s.line.link e
  let line := countAttempt echoed s.line
  let s1 := lineLeft (queueAfterAttempt (decided || givenUp e) s.line.queue) { s with line := line }
  let s2 := missedOut s1
  let s3 := if decided then attemptReport echoed e s2 else if givenUp e then givenUpReport e s2 else s2
  match e.owner with
  | .noticeUnit => submitOwed s3
  | .fetch _ => fetchFollow s3
  | _ => s3

/-! ## Reception -/

/-- The link states in which the receiver drives echoes: JOINING and ACTIVE (R75, the Echoes column of R84). -/
def linkEchoes (l : LinkState) : Bool :=
  match l with
  | .joining => true
  | .active => true
  | _ => false

/-- The receiver drives the echo slot of a frame dominant (R75): CRC-16 and format passed, the source is another station,
and the link echoes. The delimiter comes after the echo slot and does not matter (R80). -/
def drivesEcho (s : State) (r : Reception) : Bool :=
  match r with
  | .good _ src _ => src ≠ s.startUp.straps.address && linkEchoes s.line.link
  | _ => false

/-- A frame has ended at its delimiter, with this station's echo driven or not (R69, R75). -/
def frameEnds (echo : Bool) (s : State) : State := { s with line := { s.line with idleCount := 0, echoDriven := echo } }

/-- A discarded frame counted, with the idle count it leaves (R69, R80). -/
def countReceiveError (idle : Nat) (echo : Bool) (s : State) : State :=
  let t := frameEnds echo s
  { t with line := { t.line with idleCount := idle, receiveErrors := count16 t.line.receiveErrors } }

/-- A clash frame (R81): not echoed, discarded; the link enters CLASH from JOINING, ACTIVE or LISTEN-ONLY. -/
def clashFrame (s : State) : State :=
  let t := frameEnds false s
  match s.line.link with
  | .joining => enterClash t
  | .active => enterClash t
  | .listenOnly => enterClash t
  | _ => t

/-- A frame whose CRC-16 matched, at the end of its delimiter (R72, R80, R81, R82): a format error is discarded, this
station's own address is a clash, and any other frame is echoed where the link echoes, touched into the peer table and,
when it is of the station's family, delivered by class. OFFLINE, no frame is received. -/
def receiveFrame (src : Addr) (format family : Bool) (deliver : State → State) (s : State) : State :=
  if s.line.link = .offline then s
  else if src = 0 || src = 127 || !format then countReceiveError 0 false s
  else if src = s.startUp.straps.address then clashFrame s
  else
    let t := touchPeer src (frameEnds (linkEchoes s.line.link) s)
    if family then deliver t else t

/-- A candidate from a RELEASE (R103). -/
def releaseCandidate (src : Addr) (k : Key) (count : Byte) (s : State) : State :=
  if k.version ≠ 0 && count ≠ 0 then judge k src s else s

/-- A NOTICE delivered by class (R98, R102). -/
def deliverNotice (src : Addr) (n : NoticeFrame) (s : State) : State :=
  if noticeWellFormed n then
    (noticeCandidates n).foldl (fun t k => judge k src t) (refreshPeer src n s)
  else s

end Sys2Proof.Machine
end

