-- ==== Sys2Proof/Machine/StartUp.lean ====
section
/-! DEFINITION. The start-up unit: device resets, the array after a job cut short, the start-up reads, the rebuild and
its end (chapters Flash Sequencer and Start-up, Join and Wipe). -/

namespace Sys2Proof.Machine

/-! ## Device reset -/

/-- The part after a device reset (R192): held while RESET# is low or power absent, else at the start-up reads with the
straps sampled (R193). The array, the pins and the model's queue of commands stay. -/
def deviceReset (pins : Pins) (s : State) : State :=
  { State.afterReset (if pins.power && !pins.resetLow then .reading else .held) pins s.mem s.port.hcsLow with
    pending := s.pending }

/-- The program of a job's own operation: unit, offset of the segment, and 128-byte pattern (R30, R31, R35, R36); none
for a job that programs nothing. -/
def programRun (s : State) : Job → Option (Nat × Nat × List Byte)
  | .programSegment _ x b g d => some (currentUnit s.flash.spares x b, 128 * g.val, d)
  | .programNode f => some (512, 128, segmentPattern 0 (nodeBytes f))
  | .setMark x b => some (controlNumber (marksRow x), 0, markPattern b)
  | .appendRecord u q c => some (controlNumber u.unit, 128 * (q / 2), segmentPattern (64 * (q % 2)) (contentBytes c))
  | _ => none

/-- The slot and block whose unit an erase or retirement in a job concerns. -/
def blockOf : Job → Option (Slot × Block)
  | .eraseUnit _ x b => some (x, b)
  | .programSegment _ x b _ _ => some (x, b)
  | _ => none

/-- The unit an erase attempt of a job acts on: the control unit, or the block's current unit (R24). -/
def eraseTarget (s : State) (j : Job) : Nat :=
  match j with
  | .eraseControl u => controlNumber u
  | _ => match blockOf j with
    | some (x, b) => currentUnit s.flash.spares x b
    | none => 0

/-- The eight bytes of the spare map entry in progress (R8, R27). -/
def entryContent (v : Service) (p : Fin 8) : List Byte :=
  match blockOf v.job with
  | some (x, b) => spareEntryBytes x b p
  | none => []

/-- The program that the operation in service makes: a spare map entry's, or the job's own; none for an erase, a verify or a
read. -/
def operationProgram (s : State) (v : Service) : Option (Nat × Nat × List Byte) :=
  match v.op with
  | .entry p => some (513, 0, segmentPattern (8 * p.val) (entryContent v p))
  | .main => programRun s v.job
  | .erase _ => none
  | .protectedReturn => none

/-- The array operation in service writes the array with what it leaves (R2, R3, R40); a verify or read changes nothing. -/
def operationLeaves (s : State) (v : Service) (left : Left) : List Host.Cell :=
  match v.op with
  | .erase _ => eraseLeaving s.mem (eraseTarget s v.job) left
  | _ => match operationProgram s v with
    | some (u, o, pattern) => programLeaving s.mem u o pattern left
    | none => s.mem

/-- A position whose entry program was cut short or failed reads VALID or VOID, not FREE (R28, R40). -/
def entryLeftLegal (s : State) (v : Service) (left : Left) : Bool :=
  match v.op with
  | .entry p => spareReading p.val (readBytes (operationLeaves s v left) (unitAddr 513 (8 * p.val)) 8) ≠ .free
  | _ => true

/-- The array after the job in service is cut short (R40). -/
def cutShort (left : Left) (s : State) : State :=
  match s.flash.service with
  | none => s
  | some v => { s with mem := operationLeaves s v left }

/-- What a program cut short or stopped leaves clears only bits that its pattern clears and raises none (R19, R40); a reset
during the read-back is held to the same (DEDUCED, assumption log 17). -/
def programCutLegal (s : State) (v : Service) (left : Left) : Bool :=
  match operationProgram s v with
  | some (u, o, pattern) =>
    let before := readBytes s.mem (unitAddr u o) pattern.length
    cutContent before pattern (programLeft before pattern left)
  | none => true

/-- What an operation that does not run to its end leaves is a condition the table of R40 gives. -/
def interruptedLegal (s : State) (v : Service) (left : Left) : Bool := entryLeftLegal s v left && programCutLegal s v left

/-- What the cut job leaves is a condition the table of R40 gives. -/
def cutLegal (left : Left) (s : State) : Bool :=
  match s.flash.service with
  | none => true
  | some v => interruptedLegal s v left

/-! ## The rebuild -/

/-- The marks of a slot as the start-up reads found them (R199). -/
def startMarks (s : State) : Slot → List Byte
  | .a => s.startUp.marksA
  | .b => s.startUp.marksB

/-- The rebuild progress set (R192). -/
def setRebuild (r : Rebuild) (s : State) : State := { s with startUp := { s.startUp with rebuild := r } }

/-- The first block at or above `from_` that a slot's rebuild verifies (R199, R200, R202): in the active slot block 0 and
then every data block; in the staging slot the marked ones among them. -/
def nextVerify (s : State) (role : Role) (from_ : Nat) : Option Block :=
  let r := slotRec s (roleSlot s role)
  let marked (k : Nat) : Bool := role = .active || markSet (startMarks s (roleSlot s role)) (Fin.ofNat 256 k)
  if r.key.isNone then none
  else if from_ = 0 then (if marked 0 then some 0 else none)
  else match r.count with
    | none => none
    | some n => ((List.range (n + 1)).find? (fun k => from_ ≤ k && marked k)).map (Fin.ofNat 256)

/-- The active state after the active slot's re-verify (R200). -/
def rebuiltActive (s : State) : ActiveState :=
  if s.cat.recorded.active.isNone then .none else if (activeRec s).whole then .present else .damaged

/-- The end of the rebuild (R205): the phase becomes RUNNING, and without a configuration fault the link enters JOINING. Its
LINK-CHANGE comes after what the event has raised before (DESIGN CHOICE, assumption log 35). -/
def rebuildEnd (s : State) : State :=
  let t := { s with startUp := { s.startUp with stage := .running, rebuild := .idle } }
  if s.startUp.faultAddress || s.startUp.faultFamily then t else enterJoining t

/-- The re-verify is over: the rebuild ends when no repair mark is outstanding (R205). -/
def tryRebuildEnd (s : State) : State :=
  if s.startUp.rebuild = .repairs && s.startUp.repairs = 0 then rebuildEnd s else s

/-- The staging slot's re-verify is over (R202). STAGING-COMPLETE is raised before the LINK-CHANGE of the rebuild's end,
which R162 leaves open (DESIGN CHOICE, assumption log 35). -/
def finishStaging (s : State) : State :=
  let t := setRebuild .repairs s
  if s.cat.stagingState = .fetching && (stagingRec s).whole then
    tryRebuildEnd (raise .stagingComplete (versionDetail (versionOf (stagingRec s).key)) (setStagingState .complete t))
  else tryRebuildEnd t

/-- A re-verify submitted on the host queue, or left due while the record work list is full (R199, R201). -/
def submitVerify (role : Role) (b : Block) (s : State) : State :=
  if s.cat.work.length < 8 then
    let x := roleSlot s role
    let r := slotRec s x
    let want : Expected := if b = 0 then .manifest (keySent r.key) else .check (checkEntry r.checks b.val)
    submit .host (.verifyBlock .startUp x b want none) (setRebuild (.awaiting role b) s)
  else setRebuild (.due role b) s

/-- The re-verify goes on from a block of a slot (R199). -/
def rebuildFrom (role : Role) (from_ : Nat) (s : State) : State :=
  match nextVerify s role from_ with
  | some b => submitVerify role b s
  | none => match role with
    | .staging => finishStaging s
    | .active =>
      let t := { s with cat := { s.cat with activeState := rebuiltActive s } }
      match nextVerify t .staging 0 with
      | some b => submitVerify .staging b t
      | none => finishStaging t

/-- The slot record of a role changed (R199). -/
def updateRole (role : Role) (f : SlotRecord → SlotRecord) (s : State) : State :=
  setSlot (roleSlot s role) (f (slotRec s (roleSlot s role))) s

/-- A repair mark added for an active block that passed with its mark clear (R201). -/
def repairMark (role : Role) (b : Block) (s : State) : State :=
  if role = .active && !s.cat.frozen && !markSet (startMarks s s.cat.activeSlot) b then
    addWork (.setMark s.cat.activeSlot b) { s with startUp := { s.startUp with repairs := s.startUp.repairs + 1 } }
  else s

/-- The result of a re-verify (R200 to R202): PASS, with the manifest for block 0, or FAIL. ACTIVE-DAMAGED is raised before the
LINK-CHANGE of a rebuild that ends in the same event, which R162 leaves open (DESIGN CHOICE, assumption log 35). -/
def rebuildResult (pass : Bool) (b : Block) (m : Option Manifest) (s : State) : State :=
  match s.startUp.rebuild with
  | .awaiting role _ =>
    let t :=
      if pass then
        let u := updateRole role (fun r => r.setState b .verified) s
        repairMark role b (match b.val, m with
          | 0, some m => updateRole role (fun r => { r.unuseAbove m.count with count := some m.count, checks := m.checks }) u
          | _, _ => u)
      else if role = .active then raise .activeDamaged (byteDetail (BitVec.ofNat 8 b.val)) s
      else s
    rebuildFrom role (b.val + 1) t
  | _ => s

/-- A repair mark has returned, or been discarded under R201: a re-verify that waited for room goes on, or the rebuild
ends (R201, R205). -/
def rebuildResume (s : State) : State :=
  match s.startUp.rebuild with
  | .due role b => submitVerify role b s
  | .repairs => tryRebuildEnd s
  | _ => s

/-! ## The start-up reads -/

/-- The vendor part as it reads, with its check (R6). -/
def readVendor (m : List Host.Cell) : VendorPart :=
  let bytes := readBytes m (unitAddr 512 0) 13
  { vendor := field16 bytes 0, part := field16 bytes 2, revision := byteAt bytes 4, serial := field32 bytes 5,
    matched := field32 bytes 9 = crc32 (bytes.take 9) }

/-- The four bytes of the node part (R7). -/
def readNode (m : List Host.Cell) : List Byte := readBytes m (unitAddr 512 128) 4

/-- The spare map working copy from C1 (R8, R24). -/
def readSpares (m : List Host.Cell) : Vector SparePos 8 :=
  mapVecIdx (fun p (_ : SparePos) => spareReading p (readBytes m (unitAddr 513 (8 * p)) 8)) (Vector.replicate 8 .free)

/-- The states of the 32 record positions of a commit unit (R11). -/
def readPositions (m : List Host.Cell) (u : CommitUnit) : List RecordReading :=
  (List.range 32).map (fun q => recordReading (recordAt m u q))

/-- The better of a ruling record found so far and a later position: the later one when its sequence is not lower. -/
def betterRecord (u : CommitUnit) (best : Option (CommitUnit × CommitRecord)) (r : RecordReading) :
    Option (CommitUnit × CommitRecord) :=
  match r, best with
  | .valid r, some (v, p) => if p.seq ≤ r.seq then some (u, r) else some (v, p)
  | .valid r, none => some (u, r)
  | _, best => best

/-- The ruling record and its unit (R13): the highest sequence; of equals the one in C2, and in the highest position. -/
def rulingRecord (m : List Host.Cell) : Option (CommitUnit × CommitRecord) :=
  (readPositions m .c2).foldl (betterRecord .c2) ((readPositions m .c3).foldl (betterRecord .c3) none)

/-- The next position of a commit unit: above every position that is not ERASED; 32 when position 31 is not (R12). -/
def nextPosition (m : List Host.Cell) (u : CommitUnit) : Nat :=
  (readPositions m u).zipIdx.foldl (fun n e => if e.1 = .erased then n else e.2 + 1) 0

/-- The number of positions of a commit unit that are not ERASED (R11). -/
def usedPositions (m : List Host.Cell) (u : CommitUnit) : Nat :=
  ((readPositions m u).filter (fun p => p ≠ .erased)).length

/-- A record position reads 00h in all 64 bytes (R197). -/
def zeroPosition (m : List Host.Cell) (u : CommitUnit) (q : Nat) : Bool := recordAt m u q = List.replicate 64 0

/-- The unit of the lowest position that reads all 00h (R197). Where both units hold such positions R197 does not say
whose is the lowest; the model takes C2 (DESIGN CHOICE, assumption log 36). -/
def voidedUnit (m : List Host.Cell) : Option CommitUnit :=
  if (List.range 32).any (zeroPosition m .c2) then some .c2
  else if (List.range 32).any (zeroPosition m .c3) then some .c3
  else none

/-- The staging state a recorded role gives before re-verify (R202). -/
def stagingOf : StagingRole → StagingState
  | .none => .empty
  | .fetching => .fetching
  | .retired => .retired
  | .declined => .declined

/-- A slot record at the start of its rebuild: its key, every block UNKNOWN (R199). -/
def SlotRecord.start (k : Option Key) : SlotRecord := { SlotRecord.cleared with key := k }

/-- The catalogue as the start-up unit hands it over before re-verify (R11, R42, R196, R197). R43 and R200 give the active
state, and R202 the staging state, after re-verify; until then the active state is held NONE beside the recorded key, and the
staging state is that of the recorded role (DESIGN CHOICE, assumption log 34). -/
def readCatalogue (m : List Host.Cell) : Catalogue :=
  let ruling := rulingRecord m
  let r := (ruling.map Prod.snd).getD .cleared
  let u := (ruling.map Prod.fst).getD .c2
  let active := r.active.getD .b
  { slotA := .start (if active = .a then r.activeKey else r.stagingKey)
    slotB := .start (if active = .b then r.activeKey else r.stagingKey)
    activeSlot := active, activeState := .none, stagingState := stagingOf r.role, recorded := r,
    commitUnit := u, nextPos := nextPosition m u, highSeq := r.seq, usedC2 := usedPositions m .c2,
    usedC3 := usedPositions m .c3, work := [], frozen := ruling.isNone && (voidedUnit m).isSome, target := none,
    procedure := .none }

/-- What the start-up unit holds after the start-up reads (R6, R7, R14, R194). -/
def readStartUp (m : List Host.Cell) (straps : Straps) : StartUp :=
  let node := readNode m
  let reading := nodeReading node
  { stage := .rebuilding, straps := straps, faultAddress := straps.address = 0 || straps.address = 127,
    faultFamily := reading ≠ .configured, vendor := readVendor m, reading := reading,
    family := if reading = .configured then some (field16 node 0) else none,
    marksA := readBytes m (unitAddr 516 0) 32, marksB := readBytes m (unitAddr 517 0) 32,
    rebuild := .idle, repairs := 0 }

end Sys2Proof.Machine
end

