-- ==== Sys2Proof/Machine/Load.lean ====
section
/-! DEFINITION. Origin loading and reading through the host port: the load record, the jobs of LOAD DATA and LOAD END,
READ and CHECKSUM (chapter Host Commands). -/

namespace Sys2Proof.Machine

/-! ## Load record (R180) -/

/-- The state with the load record replaced. -/
def setLoad (l : LoadRecord) (s : State) : State := { s with port := { s.port with load := l } }

/-- The programmed mask of a block. -/
def loadMask (s : State) (b : Block) : Mask := s.port.load.masks[b]

/-- The programmed mask of a block set. -/
def setLoadMask (b : Block) (m : Mask) (s : State) : State :=
  setLoad { s.port.load with masks := s.port.load.masks.set b m } s

/-- The programmed mask of a block cleared, and for block 0 its copy with it (R180). -/
def clearLoadMask (b : Block) (s : State) : State :=
  let t := setLoadMask b 0 s
  if b = 0 then setLoad { t.port.load with copy := Vector.replicate 16 none } t else t

/-- A segment of block 0 captured in the copy (R180). -/
def captureSegment (g : Seg) (d : List Byte) (s : State) : State :=
  setLoad { s.port.load with copy := s.port.load.copy.set g (some d) } s

/-- The bytes of the block 0 copy; segments not captured read FFh, and step 2 of R184 keeps them from being used. -/
def copyBytes (l : LoadRecord) : List Byte :=
  l.copy.toList.flatMap (fun o => o.getD (List.replicate 128 erasedByte))

/-- The manifest of the copy, when its count is legal and its segments are captured (R184, steps 1 and 2). -/
def loadedManifest (l : LoadRecord) : Option Manifest :=
  match manifestOf (copyBytes l) with
  | none => none
  | some m =>
    if (List.range ((15 + 4 * m.count) / 128 + 1)).all (fun i => (l.copy.toList.getD i none).isSome) then some m else none

/-- The loaded key of a manifest in the copy (R184, step 3). -/
def loadedKey (l : LoadRecord) (m : Manifest) : Key :=
  { family := m.family, version := m.version, digest := crc32 ((copyBytes l).take (manifestLength m.count)) }

/-! ## LOAD DATA (R182, R183) -/

/-- The block byte and mask of a LOAD DATA answer (R219). -/
def loadPayload (b : Block) (m : Mask) : List Byte := BitVec.ofNat 8 b.val :: bytes16 m

/-- The program of a LOAD DATA submitted (R183). -/
def loadProgram (b : Block) (g : Seg) (d : List Byte) (s : State) : State :=
  submit .host (.programSegment .host (stagingSlot s) b g d) (blockEvent .programSubmitted b s)

/-- The erase of a LOAD DATA submitted (R183). -/
def loadErase (b : Block) (s : State) : State :=
  submit .host (.eraseUnit .host (stagingSlot s) b) (blockEvent .eraseSubmitted b (clearLoadMask b s))

/-- The results of an ERASE UNIT job (R18). -/
inductive EraseResult where
  | blank | dead | isProtected
deriving DecidableEq, Repr

/-- The results of a PROGRAM SEGMENT job with a slot target (R18). -/
inductive ProgramResult where
  | done | relocated | dead | isProtected
deriving DecidableEq, Repr

/-- PROTECTED for a LOAD DATA, which R183 says does not arise: the block follows R46 and the command ends
(DESIGN CHOICE, assumption log 15). -/
def loadProtected (b : Block) (s : State) : State := answer .refusedState [] (blockEvent .isProtected b s)

/-- The result of a LOAD DATA's erase (R183). -/
def loadErased (r : EraseResult) (b : Block) (s : State) : State :=
  match r with
  | .blank =>
    match s.port.command with
    | some (.loadData _ g d) => loadProgram b g d (blockEvent .eraseBlank b s)
    | _ => blockEvent .eraseBlank b s
  | .dead => answer .worn (loadPayload b 0) (blockEvent .eraseDead b s)
  | .isProtected => loadProtected b s

/-- The result of a LOAD DATA's program (R180, R183). -/
def loadProgrammed (r : ProgramResult) (b : Block) (g : Seg) (d : List Byte) (s : State) : State :=
  match r with
  | .done =>
    let t := setLoadMask b (loadMask s b ||| segBit g) (blockEvent .programDone b s)
    let u := if b = 0 then captureSegment g d t else t
    answer .ok (loadPayload b (loadMask u b)) u
  | .relocated => loadProgram b g d (clearLoadMask b (blockEvent .programRelocated b s))
  | .dead => answer .worn (loadPayload b 0) (setLoadMask b 0 (blockEvent .programDead b s))
  | .isProtected => loadProtected b s

/-! ## LOAD END (R184 to R186) -/

/-- LOAD END ends with a failing block and cause (R186). -/
def loadEndFail (b : Nat) (cause : Byte) (s : State) : State :=
  answer .badImage [BitVec.ofNat 8 b, cause] (loadUndo s)

/-- The further inputs of a LOAD END verify: none for block 0 (R185). -/
def loadFeed (w : LoadEndWork) : Option ImageFeed :=
  if w.at_ = 0 then none else some { running := w.running, leading := leadingBytes w.count w.length w.at_ }

/-- The verify of the next block of a LOAD END submitted, or the block failed without a job (R185). -/
def loadEndVerify (w : LoadEndWork) (s : State) : State :=
  let b : Block := Fin.ofNat 256 w.at_
  if stagingBlock s b = .filling || stagingBlock s b = .blank then
    submit .host (.verifyBlock .host (stagingSlot s) b (expectedOf s w.key b) (loadFeed w))
      (blockEvent .verifySubmitted b (setCommand (.loadEnd w) s))
  else loadEndFail w.at_ 3 s

/-- The LOAD END append (R67): staging key L with role FETCHING. -/
def loadEndAppend (k : Key) (s : State) : State :=
  addAppend { s.cat.recorded with stagingKey := some k, role := .fetching } (setProcedure .loadEnd s)

/-- Every block of a LOAD END has passed (R67, R185, R186). While FROZEN no record is added (R55), so it ends WORN
(DEDUCED, assumption log 14). -/
def loadEndPassed (w : LoadEndWork) (s : State) : State :=
  if ~~~ w.running ≠ w.image then loadEndFail 0 4 s
  else if s.cat.frozen then answer .worn [] (loadUndo s)
  else match s.cat.target with
    | some (k, _) =>
      if w.key.version < k.version then startReclaim k (setTarget none (answer .superseded (bytes16 k.version) s))
      else loadEndAppend w.key s
    | none => loadEndAppend w.key s

/-- The result of a LOAD END verify (R185): PASS with the manifest of block 0, or FAIL, and the new running value. -/
def loadEndVerified (pass : Bool) (m : Option Manifest) (running : BitVec 32) (b : Block) (s : State) : State :=
  match s.port.command with
  | some (.loadEnd w) =>
    if pass then
      let w' := { w with running := running, at_ := w.at_ + 1 }
      if w.at_ = w.count then loadEndPassed w' (blockVerified b m s) else loadEndVerify w' (blockVerified b m s)
    else loadEndFail w.at_ 3 (blockEvent .verifyFail b s)
  | _ => s

/-- LOAD END takes the loaded key: the slot record takes key and count, and the blocks above are UNUSED (R67, R184). -/
def loadEndStart (k : Key) (m : Manifest) (s : State) : State :=
  loadEndVerify { key := k, count := m.count, length := m.length, image := m.image, running := 0xFFFFFFFF, at_ := 0 }
    (updateStaging (fun r => { r.unuseAbove m.count with key := some k, count := some m.count }) s)

/-! ## READ and CHECKSUM (R175 to R177) -/

/-- A READ's answer: NOT-READY with the version and a cause, or OK with the bytes (R175, R219). -/
def readAnswer (r : Resolved) (data : Option (List Byte)) (s : State) : State :=
  if !r.readable then answer .notReady (bytes16 r.version ++ [1]) s
  else match data with
    | some d => answer .ok (bytes16 r.version ++ d) s
    | none => answer .notReady (bytes16 r.version ++ [2]) s

/-- The CHECK BLOCK of the next block of a CHECKSUM submitted (R176). -/
def checksumNext (role : Role) (first count : Nat) (done : List CheckLine) (s : State) : State :=
  submit .host (.checkBlock role (Fin.ofNat 256 (first + done.length))) (setCommand (.checksum role first count done) s)

/-- A CHECK BLOCK result recorded; the last one answers the command (R176, R177). -/
def checksumLine (line : CheckLine) (s : State) : State :=
  match s.port.command with
  | some (.checksum role first count done) =>
    let all := done ++ [line]
    if all.length < count then checksumNext role first count all s
    else answer .ok ([BitVec.ofNat 8 first, BitVec.ofNat 8 count] ++ all.flatMap checkLineBytes) s
  | _ => s

end Sys2Proof.Machine
end

