-- ==== Sys2Proof/Machine/Wipe.lean ====
section
/-! DEFINITION. The WIPE procedure (R207 to R210). -/

namespace Sys2Proof.Machine

/-- The control unit of each WIPE erase (R208). The current commit unit is the one R51 made current when an append was added,
also where that append has not returned DONE, so that the ruling record stands in the other unit (DEDUCED, assumption log
39). -/
def wipeUnit (s : State) : Nat → ControlUnit
  | 0 => s.cat.commitUnit.other.unit
  | 1 => s.cat.commitUnit.unit
  | 2 => .c4
  | _ => .c5

/-- The position of each void job: 0 to 31 of C2, then of C3 (R210). -/
def wipeVoid (j : Nat) : Job := .appendRecord (if j < 32 then .c2 else .c3) (j % 32) .voided

/-- The record that WIPE appends (R210). -/
def wipeRecord : CommitRecord := { CommitRecord.cleared with seq := 1 }

/-- The WIPE procedure at a step, its job submitted (R208 to R210). -/
def wipeStep (step : WipeStep) (failed : Bool) (s : State) : State :=
  let t := setProcedure (.wipe step failed) s
  match step with
  | .drain => t
  | .control i => addWork (.eraseControl (wipeUnit t i)) t
  | .block x b => submit .host (.eraseUnit .wipe x b) t
  | .record => addWork (.appendRecord .c2 0 (.record wipeRecord)) t
  | .void j => addWork (wipeVoid j) t

/-- What follows the last slot erase (R210). -/
def wipeAfterSlots (failed : Bool) : WipeStep := if failed then .void 0 else .record

/-- The step after a step whose job has returned; none when the device resets (R208 to R210). -/
def wipeFollowing (failed : Bool) : WipeStep → Option WipeStep
  | .drain => some (.control 0)
  | .control i => if i < 3 then some (.control (i + 1)) else some (.block .a 0)
  | .block .a b => if b.val < 255 then some (.block .a (b + 1)) else some (.block .b 0)
  | .block .b b => if b.val < 255 then some (.block .b (b + 1)) else some (wipeAfterSlots failed)
  | .record => if failed then some (.void 0) else none
  | .void j => if j < 63 then some (.void (j + 1)) else none

/-- WIPE goes on after the job of its step has returned; at its end the device resets, and samples the straps at the levels
that the command of that event has brought (R192, R193, R210). -/
def wipeNext (s : State) : State :=
  match s.cat.procedure with
  | .wipe step failed =>
    match wipeFollowing failed step with
    | some next => wipeStep next failed s
    | none => deviceReset s.pins s
  | _ => s

/-- The link at the start of WIPE (R207, step 1). -/
def wipeLink (s : State) : State :=
  match s.line.link with
  | .joining => enterListenOnly .held s
  | .active => enterListenOnly .held s
  | .listenOnly => { s with line := { s.line with listen := .held } }
  | _ => s

/-- The job in service is a record job. -/
def recordInService (s : State) : Bool :=
  match s.flash.service with
  | none => false
  | some v => match v.job with
    | .setMark .. => true
    | .appendRecord .. => true
    | .eraseControl _ => true
    | _ => false

/-- The start of the WIPE procedure (R207, R208). -/
def wipeBegin (s : State) : State :=
  let t := wipeLink s
  let u := withdrawJobs .record (fun _ => true)
    { t with cat := { t.cat with work := [], procedure := .wipe .drain false } }
  let v := abandon u
  let w := { v with cat := { v.cat with
    slotA := .cleared, slotB := .cleared, activeState := .none, stagingState := .empty, target := none } }
  if recordInService w then w else wipeNext w

end Sys2Proof.Machine
end

