-- ==== Sys2Proof/Machine/Results.lean ====
section
/-! DEFINITION. The ends of the flash sequencer's array operations and jobs: results to their requesters, retirement,
control-unit failures, and the arbiter's next pick (chapter Flash Sequencer). -/

namespace Sys2Proof.Machine

/-- The state with the job in service replaced. -/
def setService (v : Service) (s : State) : State := { s with flash := { s.flash with service := some v } }

/-! ## Results of fetch jobs (R121, R122, R125, R131) -/

/-- A context whose job has returned. -/
def jobReturned (i : Fin 4) (s : State) : State := updateCtx i (fun c => { c with job := .none }) s

/-- A result that ends the context (R121, R122, R125): it is released, and opening goes on. -/
def endCtx (i : Fin 4) (s : State) : State := fetchFollow (releaseCtx i s)

/-- The erase result BLANK of a live context (R122). -/
def fetchBlank (i : Fin 4) (s : State) : State :=
  if (ctxOf s i).state = .preparing then fetchFollow (enterAsking i s) else fetchFollow (evaluate i (programNext i s))

/-- The erase result of a live context (R122). -/
def fetchErased (r : EraseResult) (i : Fin 4) (b : Block) (s : State) : State :=
  let t := jobReturned i s
  match r with
  | .blank => fetchBlank i (blockEvent .eraseBlank b t)
  | .dead => endCtx i (blockEvent .eraseDead b t)
  | .isProtected => endCtx i (blockEvent .isProtected b t)

/-- An orphan erase result (R131): BLANK for a staging block is passed to the catalogue, and nothing else is. -/
def orphanErased (r : EraseResult) (x : Slot) (b : Block) (s : State) : State :=
  if r = .blank ∧ x = stagingSlot s then blockEvent .eraseBlank b s else s

/-- The program result of a live context (R121). -/
def fetchProgrammed (r : ProgramResult) (i : Fin 4) (b : Block) (g : Seg) (s : State) : State :=
  let t := jobReturned i s
  match r with
  | .done =>
    fetchFollow (evaluate i (programNext i (freeHead i
      (updateCtx i (fun c => { c with programmed := c.programmed ||| segBit g }) (blockEvent .programDone b t)))))
  | .relocated =>
    programNext i (updateCtx i (fun c => { c with programmed := 0, wanted := 0xFFFF }) (blockEvent .programRelocated b t))
  | .dead => endCtx i (blockEvent .programDead b t)
  | .isProtected => endCtx i (blockEvent .isProtected b t)

/-- A context after its block failed verify (R125). -/
def Ctx.restarted (c : Ctx) : Ctx :=
  { c with state := .preparing, programmed := 0, server := none, wanted := 0xFFFF, job := .erase }

/-- The verify result of a live context (R125). -/
def fetchVerified (pass : Bool) (m : Option Manifest) (i : Fin 4) (b : Block) (s : State) : State :=
  let t := jobReturned i s
  if pass then endCtx i (blockVerified b m t)
  else submitErase i b (updateCtx i Ctx.restarted (blockEvent .verifyFail b t))

/-! ## Results by requester (R18) -/

/-- The result of an ERASE UNIT returned to its requester. -/
def eraseReturn (v : Service) (r : EraseResult) (s : State) : State :=
  match v.job with
  | .eraseUnit req x b =>
    match req with
    | .fetch i => if v.orphan then orphanErased r x b s else fetchErased r i b s
    | .host => loadErased r b s
    | .wipe => wipeNext s
    | .startUp => s
  | _ => s

/-- The result of a PROGRAM SEGMENT with a slot target returned to its requester. -/
def programReturn (v : Service) (r : ProgramResult) (s : State) : State :=
  match v.job with
  | .programSegment req _ b g d =>
    match req with
    | .fetch i => if v.orphan then freeInFlight s else fetchProgrammed r i b g s
    | .host => loadProgrammed r b g d s
    | .wipe => s
    | .startUp => s
  | _ => s

/-- The result of a VERIFY BLOCK returned to its requester. -/
def verifyReturn (v : Service) (pass : Bool) (m : Option Manifest) (running : BitVec 32) (s : State) : State :=
  match v.job with
  | .verifyBlock req _ b _ _ =>
    match req with
    | .fetch i => if v.orphan then s else fetchVerified pass m i b s
    | .host => loadEndVerified pass m running b s
    | .startUp => rebuildResult pass b m s
    | .wipe => s
  | _ => s

/-- The result DEAD of the job in service (R29): SLOT-DEAD, and the requester. -/
def deadReturn (v : Service) (s : State) : State :=
  match v.job with
  | .eraseUnit _ x b => eraseReturn v .dead (raise .slotDead (deadDetail x b) s)
  | .programSegment _ x b _ _ => programReturn v .dead (raise .slotDead (deadDetail x b) s)
  | _ => s

/-! ## Control units (R35 to R38) -/

/-- WIPE is open and has begun its own control-unit jobs; a record job that returns before is dropped (R207, R208). -/
def wipeOwnJob (s : State) : Bool :=
  match s.cat.procedure with
  | .wipe .drain _ => false
  | .wipe _ _ => true
  | _ => false

/-- WIPE is waiting for the record job that was in service when it started (R208). -/
def wipeDraining (s : State) : Bool :=
  match s.cat.procedure with
  | .wipe .drain _ => true
  | _ => false

/-- The FAILED result of a record job (R38, R52 to R54): ARRAY-FAULT, the record queue returned NOT-RUN, and FROZEN. -/
def controlFailed (u : ControlUnit) (j : Job) (s : State) : State :=
  let t := raise .arrayFault (faultDetail (controlNumber u) (jobCode j)) s
  let w := { t with flash := { t.flash with recordQ := [] } }
  if wipeDraining s then wipeNext w
  else if wipeOwnJob s then wipeNext (setFrozen w)
  else rebuildResume (setFrozen w)

/-- A repair mark of the rebuild has returned DONE (R201, R205). -/
def repairReturned (s : State) : State :=
  if s.startUp.stage = .rebuilding then
    rebuildResume { s with startUp := { s.startUp with repairs := s.startUp.repairs - 1 } }
  else s

/-- The DONE result of a record job (R35 to R37, R52, R53, R208, R210). -/
def controlDone (j : Job) (s : State) : State :=
  if wipeDraining s || wipeOwnJob s then wipeNext s
  else match j with
    | .appendRecord _ _ (.record r) => appendDone r s
    | .setMark _ _ => repairReturned s
    | _ => s

/-! ## Erase attempts and retirement (R26 to R30) -/

/-- Retirement of the current unit of the job's block (R27, R29): the entry program at the next position, or DEAD. -/
def retire (v : Service) (s : State) : State :=
  match nextSpare s.flash.spares with
  | some p => setService { v with op := .entry p } s
  | none => endService (deadReturn v s)

/-- An erase attempt that failed after `n` others on the unit (R26, R37). -/
def attemptFailed (v : Service) (n : Nat) (s : State) : State :=
  if n < 2 then setService { v with op := .erase (n + 1) } s
  else match v.job with
    | .eraseControl u => endService (controlFailed u v.job s)
    | _ => retire v s

/-- An erase attempt that passed ends its job (R26, R30, R37). -/
def attemptPassed (v : Service) (s : State) : State :=
  match v.job with
  | .eraseControl _ => endService (controlDone v.job s)
  | .programSegment .. => endService (programReturn v .relocated s)
  | _ => endService (eraseReturn v .blank s)

/-- A spare map entry that failed: its position is VOID, and retirement goes on with the next (R28). -/
def entryFailed (v : Service) (p : Fin 8) (s : State) : State :=
  retire v (raise .arrayFault (faultDetail 513 (jobCode v.job))
    { s with flash := { s.flash with spares := s.flash.spares.set p .void } })

/-- A spare map entry that read back: its position is VALID, and the spare is erased (R27). -/
def entryPassed (v : Service) (p : Fin 8) (s : State) : State :=
  match blockOf v.job with
  | some (x, b) =>
    setService { v with op := .erase 0 } (raise .unitRetired (retiredDetail (currentUnit s.flash.spares x b) (518 + p.val))
      { s with flash := { s.flash with spares := s.flash.spares.set p (.valid x b) } })
  | none => s

/-- The PROGRAM SEGMENT of the node part of C0 ends (R31, R169). -/
def nodeReturn (done : Bool) (family : BitVec 16) (s : State) : State :=
  if done then answer .ok (bytes16 family) s
  else answer .worn [] (raise .arrayFault (faultDetail 512 2) s)

/-! ## Verifies and checks (R32, R34) -/

/-- A block's content against an expected value: whether it passes, and the manifest of a block 0 that does. -/
def judgeContent (want : Expected) (content : List Byte) : Bool × Option Manifest :=
  match want with
  | .check v => (crc32 content = v, none)
  | .manifest k =>
    match acceptManifest k content with
    | some m => (true, some m)
    | none => (false, none)

/-- The running image check after a verify (R32, R185). -/
def feedImage (feed : Option ImageFeed) (content : List Byte) : BitVec 32 :=
  match feed with
  | some f => crc32Feed f.running (content.take f.leading)
  | none => 0xFFFFFFFF

/-! ## The end of an event -/

/-- A PROTECTED result of the job in service (R25). -/
def protectedReturn (v : Service) (s : State) : State :=
  match v.job with
  | .eraseUnit .. => endService (eraseReturn v .isProtected s)
  | .programSegment .. => endService (programReturn v .isProtected s)
  | _ => s

/-- Jobs taken under the active-slot law end at once with PROTECTED (R25). -/
def drainProtected : Nat → State → State
  | 0, s => s
  | n + 1, s =>
    match s.flash.service with
    | some v => if v.op = .protectedReturn then drainProtected n (protectedReturn v s) else s
    | none => s

/-- The jobs that wait in the request queues and the record work list. -/
def jobsWaiting (s : State) : Nat :=
  s.flash.recordQ.length + s.flash.fetchQ.length + s.flash.serveQ.length + s.flash.hostQ.length + s.cat.work.length

/-- The end of a command's event: PROTECTED jobs end, and the notice unit watches for a changed content (R25, R92). -/
def settle (before after : State) : State := noticeWatch before (drainProtected (jobsWaiting after + 1) after)

/-- The next state of a command. -/
def conclude (before after : State) : Host.Outcome State Fault Refusal := .next (settle before after)

/-- The next state of a command that changes no field of R90 that the link state lets the notice unit act on, and takes
no job that names the active slot. -/
def proceed (after : State) : Host.Outcome State Fault Refusal := .next after

/-- A command that does not take place in the state. -/
def refuse (r : Refusal) : Host.Outcome State Fault Refusal := .refused r

end Sys2Proof.Machine
end

