-- ==== Sys2Proof/Machine/Array.lean ====
section
/-! DEFINITION. The commands of the flash sequencer: the end of each array operation of the job in service (chapter
Flash Sequencer), and the overtime that stops one. -/

namespace Sys2Proof.Machine

/-! ## Shared parts -/

/-- The strap pins at the levels given. The straps in force change at a device reset alone (R193). -/
def strapPins (straps : Straps) (s : State) : State := { s with pins := { s.pins with straps := straps } }

/-- The array after the operation in service, which leaves the given content. -/
def leaveContent (v : Service) (left : Left) (s : State) : State := { s with mem := operationLeaves s v left }

/-- An erase attempt and its blank check end (R26). -/
def eraseEnds (v : Service) (n : Nat) (left : Left) (s : State) : State :=
  let t := leaveContent v left s
  if blankCheck t.mem (eraseTarget s v.job) then attemptPassed v t else attemptFailed v n t

/-- A spare map entry program and its read-back end (R27, R28). -/
def entryEnds (v : Service) (p : Fin 8) (left : Left) (s : State) : State :=
  let t := leaveContent v left s
  if readBytes t.mem (unitAddr 513 (8 * p.val)) 8 = entryContent v p then entryPassed v p t else entryFailed v p t

/-- A segment program and its read-back end (R30). -/
def segmentEnds (v : Service) (left : Left) (s : State) : State :=
  match programRun s v.job with
  | some (u, o, pattern) =>
    let t := leaveContent v left s
    if readBackMatches s.mem t.mem u o pattern then endService (programReturn v .done t) else retire v t
  | none => s

/-- The program of the node part of C0 and its read-back end (R31). -/
def nodeEnds (v : Service) (family : BitVec 16) (left : Left) (s : State) : State :=
  let t := leaveContent v left s
  endService (nodeReturn (readBackMatches s.mem t.mem 512 128 (nodeBytes family)) family t)

/-- A verify ends with its result (R32). -/
def verifyEnds (v : Service) (x : Slot) (b : Block) (want : Expected) (feed : Option ImageFeed) (s : State) : State :=
  let content := unitBytes s.mem (currentUnit s.flash.spares x b)
  let judged := judgeContent want content
  endService (verifyReturn v judged.1 judged.2 (feedImage feed content) s)

/-- The outcome and value of a CHECK BLOCK (R34, R176). -/
def checkLine (s : State) (r : Resolved) (b : Block) : CheckLine :=
  if r.readable then
    let content := unitBytes s.mem (currentUnit s.flash.spares r.slot b)
    { outcome := if (judgeContent r.want content).1 then .isMatch else .mismatch, version := r.version, crc := crc32 content }
  else { outcome := .notVerified, version := r.version, crc := 0 }

/-- The bytes a READ RANGE reads (R34). -/
def rangeBytes (s : State) (r : Resolved) (b : Block) (offset length : Nat) : List Byte :=
  readBytes s.mem (unitAddr (currentUnit s.flash.spares r.slot b) offset) length

/-- A mark program and its read-back end (R35). -/
def markEnds (v : Service) (x : Slot) (b : Block) (left : Left) (s : State) : State :=
  let t := leaveContent v left s
  let u := marksRow x
  endService (if readBackMatches s.mem t.mem (controlNumber u) 0 (markPattern b) then controlDone v.job t
    else controlFailed u v.job t)

/-- A record append and its read-back end (R36). -/
def appendEnds (v : Service) (u : CommitUnit) (q : Nat) (c : RecordContent) (left : Left) (s : State) : State :=
  let t := leaveContent v left s
  endService (if recordAt t.mem u q = contentBytes c then controlDone v.job t else controlFailed u.unit v.job t)

/-- The physical unit of the operation in service (R19). -/
def operationUnit (s : State) (v : Service) : Nat :=
  match v.op with
  | .erase _ => eraseTarget s v.job
  | .entry _ => 513
  | _ => match v.job with
    | .verifyBlock _ x b _ _ => currentUnit s.flash.spares x b
    | .readSegment x b _ _ => currentUnit s.flash.spares x b
    | .readRange _ b _ _ => currentUnit s.flash.spares ((v.resolved.map Resolved.slot).getD .a) b
    | .checkBlock _ b => currentUnit s.flash.spares ((v.resolved.map Resolved.slot).getD .a) b
    | j => match programRun s j with
      | some (u, _, _) => u
      | none => 0

/-- ARRAY-FAULT for an overtime of the operation in service (R19). -/
def overtimeFault (v : Service) (s : State) : State :=
  raise .arrayFault (faultDetail (operationUnit s v) (jobCode v.job)) s

/-- The line of a CHECK BLOCK stopped at its overtime limit (R34, R176). -/
def faultLine (r : Resolved) : CheckLine := { outcome := .readFault, version := r.version, crc := 0 }

/-- The job's own program, verify or read is stopped at its overtime limit (R19, R30 to R36); none when the job reads
no unit. A failed C0 program raises its one ARRAY-FAULT in R31. -/
def mainOvertime (v : Service) (left : Left) (s : State) : Option State :=
  let t := leaveContent v left s
  let f := overtimeFault v t
  match v.job, v.resolved with
  | .programSegment .., _ => some (retire v f)
  | .programNode family, _ => some (endService (nodeReturn false family t))
  | .verifyBlock .., _ => some (endService (verifyReturn v false none 0xFFFFFFFF f))
  | .readSegment _ _ _ i, _ => some (endService (readResult i none f))
  | .readRange .., some r => if r.readable then some (endService (readAnswer r none f)) else none
  | .checkBlock .., some r => if r.readable then some (endService (checksumLine (faultLine r) f)) else none
  | .setMark x _, _ => some (endService (controlFailed (marksRow x) v.job f))
  | .appendRecord u _ _, _ => some (endService (controlFailed u.unit v.job f))
  | _, _ => none

/-- The operation in service is stopped at its overtime limit (R19); none when there is no such operation. -/
def operationOvertime (v : Service) (left : Left) (s : State) : Option State :=
  match v.op with
  | .erase n => some (attemptFailed v n (overtimeFault v (leaveContent v left s)))
  | .entry p => some (entryFailed v p (leaveContent v left s))
  | .main => mainOvertime v left s
  | .protectedReturn => none

/-! ## The commands -/

/-- ERASE_ATTEMPT (R26, R30, R37). -/
def execEraseAttempt (left : Left) (s : State) : Host.Outcome State Fault Refusal :=
  match s.flash.service with
  | some v => match v.op with
    | .erase n => conclude s (eraseEnds v n left s)
    | _ => refuse .noSuchJob
  | none => refuse .noSuchJob

/-- SPARE_ENTRY_PROGRAM (R27, R28). A failed entry leaves its position VOID, never FREE. -/
def execSpareEntryProgram (left : Left) (s : State) : Host.Outcome State Fault Refusal :=
  match s.flash.service with
  | some v => match v.op with
    | .entry p => if entryLeftLegal s v left then conclude s (entryEnds v p left s) else refuse .notAsReported
    | _ => refuse .noSuchJob
  | none => refuse .noSuchJob

/-- PROGRAM_SEGMENT (R30, R31). -/
def execProgramSegment (left : Left) (s : State) : Host.Outcome State Fault Refusal :=
  match s.flash.service with
  | some v => match v.op, v.job with
    | .main, .programSegment .. => conclude s (segmentEnds v left s)
    | .main, .programNode family => conclude s (nodeEnds v family left s)
    | _, _ => refuse .noSuchJob
  | none => refuse .noSuchJob

/-- VERIFY_BLOCK (R32). -/
def execVerifyBlock (s : State) : Host.Outcome State Fault Refusal :=
  match s.flash.service with
  | some v => match v.job with
    | .verifyBlock _ x b want feed => conclude s (verifyEnds v x b want feed s)
    | _ => refuse .noSuchJob
  | none => refuse .noSuchJob

/-- READ_SEGMENT (R33). -/
def execReadSegment (s : State) : Host.Outcome State Fault Refusal :=
  match s.flash.service with
  | some v => match v.job with
    | .readSegment x b g i =>
      conclude s (endService (readResult i (some (segmentBytes s.mem (currentUnit s.flash.spares x b) g.val)) s))
    | _ => refuse .noSuchJob
  | none => refuse .noSuchJob

/-- READ_RANGE (R34, R175). -/
def execReadRange (s : State) : Host.Outcome State Fault Refusal :=
  match s.flash.service with
  | some v => match v.job, v.resolved with
    | .readRange _ b offset length, some r =>
      conclude s (endService (readAnswer r (some (rangeBytes s r b offset length)) s))
    | _, _ => refuse .noSuchJob
  | none => refuse .noSuchJob

/-- CHECK_BLOCK (R34, R176, R177). -/
def execCheckBlock (s : State) : Host.Outcome State Fault Refusal :=
  match s.flash.service with
  | some v => match v.job, v.resolved with
    | .checkBlock _ b, some r => conclude s (endService (checksumLine (checkLine s r b) s))
    | _, _ => refuse .noSuchJob
  | none => refuse .noSuchJob

/-- SET_MARK (R35). -/
def execSetMark (left : Left) (s : State) : Host.Outcome State Fault Refusal :=
  match s.flash.service with
  | some v => match v.job with
    | .setMark x b => conclude s (markEnds v x b left s)
    | _ => refuse .noSuchJob
  | none => refuse .noSuchJob

/-- APPEND_RECORD (R36). The append that ends WIPE ends in a device reset, which samples the straps (R193, R210). -/
def execAppendRecord (left : LastLeft) (s : State) : Host.Outcome State Fault Refusal :=
  match s.flash.service with
  | some v => match v.job with
    | .appendRecord u q c => conclude s (appendEnds v u q c left.content (strapPins left.straps s))
    | _ => refuse .noSuchJob
  | none => refuse .noSuchJob

/-- OVERTIME (R19). The operation leaves what an interrupted one leaves (R40). The last append of WIPE may end so, and WIPE with
it (R193, R210). -/
def execOvertime (left : LastLeft) (s : State) : Host.Outcome State Fault Refusal :=
  match s.flash.service with
  | some v =>
    if interruptedLegal s v left.content then
      match operationOvertime v left.content (strapPins left.straps s) with
      | some t => conclude s t
      | none => refuse .noSuchJob
    else refuse .notAsReported
  | none => refuse .noSuchJob

end Sys2Proof.Machine
end

