-- ==== Sys2Proof/Machine/Distribution.lean ====
section
/-! DEFINITION. The commands of the distribution line: the idle line, the ends of an attempt, and the frames received
(chapter The Distribution Line). -/

namespace Sys2Proof.Machine

/-! ## Sending -/

/-- LINE_IDLE (R73, R78): the line is idle, or an entry is submitted while it still is, and the controller chooses. An
OFFLINE controller reads nothing (R85). -/
def execLineIdle (s : State) : Host.Outcome State Fault Refusal :=
  if s.line.link = .offline then proceed s
  else match onLineEntry s with
    | some _ => refuse .lineBusy
    | none => proceed (lineIdleChoice s)

/-- CONTENTION_LOST (R73). -/
def execContentionLost (s : State) : Host.Outcome State Fault Refusal :=
  match onLineEntry s with
  | some e => proceed (loseContention e s)
  | none => refuse .nothingOnLine

/-- BIT_ERROR (R74): the abort ends the attempt without echo. -/
def execBitError (s : State) : Host.Outcome State Fault Refusal :=
  match onLineEntry s with
  | some e => conclude s (endAttempt false e s)
  | none => refuse .nothingOnLine

/-- ATTEMPT_END (R75, R76). -/
def execAttemptEnd (echoed : Bool) (s : State) : Host.Outcome State Fault Refusal :=
  match onLineEntry s with
  | some e => conclude s (endAttempt echoed e s)
  | none => refuse .nothingOnLine

/-! ## Receiving -/

/-- FRAME_DISCARDED (R75, R80): the bits read decide the discard, and whether the echo slot was driven before it. OFFLINE,
no frame is received. -/
def execFrameDiscarded (bits : List Bool) (dominantDelimiter : Bool) (s : State) : Host.Outcome State Fault Refusal :=
  if s.line.link = .offline then proceed s
  else if discards bits dominantDelimiter then proceed (countReceiveError (idleAtEnd s.line.idleCount bits) (drivesEcho s (receiveBits bits)) s)
  else refuse .notAsReported

/-- CLASH (R81): a good frame with this station's own address that it did not send. OFFLINE, no frame is received. -/
def execClash (s : State) : Host.Outcome State Fault Refusal :=
  if s.line.link = .offline then proceed s else proceed (clashFrame s)

/-- RELEASE_RECEIVED (R82, R103). -/
def execReleaseReceived (src : Addr) (key : Key) (count : Byte) (s : State) : Host.Outcome State Fault Refusal :=
  conclude s (receiveFrame src true (ofFamily s key) (releaseCandidate src key count) s)

/-- OFFER_RECEIVED (R82, R115, R116, R142). -/
def execOfferReceived (src : Addr) (key : Key) (block : Block) (mask : Mask) (s : State) :
    Host.Outcome State Fault Refusal :=
  proceed (receiveFrame src (mask ≠ 0) (ofFamily s key)
    (fun t => fetchOffer src key block mask (suppress key block mask t)) s)

/-- ASK_RECEIVED (R82, R135 to R138). -/
def execAskReceived (src : Addr) (target : Byte) (key : Key) (block : Block) (mask : Mask) (s : State) :
    Host.Outcome State Fault Refusal :=
  proceed (receiveFrame src (mask ≠ 0 && target.toNat ≤ 126) (ofFamily s key)
    (serveAsk (target.extractLsb' 0 7) key block mask) s)

/-- SEGMENT_RECEIVED (R82, R118, R119). -/
def execSegmentReceived (src : Addr) (key : Key) (block : Block) (index : Byte) (data : List Byte) (s : State) :
    Host.Outcome State Fault Refusal :=
  proceed (receiveFrame src (index.toNat ≤ 15 && data.length = 128) (ofFamily s key)
    (fetchSegment key block (Fin.ofNat 16 index.toNat) data) s)

/-- NOTICE_RECEIVED (R82, R98, R102). -/
def execNoticeReceived (src : Addr) (notice : NoticeFrame) (s : State) : Host.Outcome State Fault Refusal :=
  conclude s (receiveFrame src true (noticeOfFamily s notice) (deliverNotice src notice) s)

end Sys2Proof.Machine
end

