-- ==== Sys2Proof/Machine/Port.lean ====
section
/-! DEFINITION. The host port's transactions and the judgement of a command (chapter Host Port; R166), and the commands
of a transaction that carries no command to carry out. -/

namespace Sys2Proof.Machine

/-! ## Transactions -/

/-- The port takes no part in transactions: the part is held in reset, or HCS# has been low since a device reset (R151). -/
def portClosed (s : State) : Bool := s.startUp.stage = .held || s.port.disregard

/-- HCS# goes low: the state code and the event count are captured (R152). -/
def captureState (s : State) : State :=
  { s with port := { s.port with hcsLow := true, capState := s.port.state, capEvents := s.port.events.length } }

/-- HCS# goes high after a transaction that the port disregards (R151). -/
def releasePins (s : State) : State := { s with port := { s.port with hcsLow := false, disregard := false } }

/-- The state as a transaction ends: captured at its begin, or now where the command stands for the whole transaction
(assumption log 18). -/
def captured (s : State) : State := if s.port.hcsLow then s else captureState s

/-- The bytes clocked out on HDO in `n` complete bytes: the port-state bytes, what follows them, then FFh (R152, R153,
R160). -/
def hdoBytes (s : State) (n : Nat) (following : List Byte) : List Byte :=
  let known := [portCode s.port.capState, BitVec.ofNat 8 s.port.capEvents] ++ following
  known.take n ++ List.replicate (n - known.length) 0xFF

/-- HCS# goes high after a transaction of `n` complete bytes (R151). -/
def endTransaction (n : Nat) (following : List Byte) (s : State) : State :=
  { captured s with port := { (captured s).port with
      hcsLow := false, hdo := hdoBytes (captured s) n following } }

/-- The bytes an answer read clocks out after the port-state bytes (R160). -/
def answerFollowing (s : State) : List Byte :=
  match s.port.capState, s.port.answer with
  | .answered, some a => answerBytes a
  | _, _ => []

/-- An answer read of `n` bytes is complete (R160). -/
def readComplete (s : State) (n : Nat) : Bool :=
  match s.port.capState, s.port.answer with
  | .answered, some a => 6 + a.payload.length ≤ n
  | _, _ => false

/-- The end of an answer read (R160): a complete one empties the answer store. -/
def answerRead (n : Nat) (s : State) : State :=
  let t := endTransaction n (answerFollowing (captured s)) s
  if readComplete (captured s) n then { t with port := { t.port with state := .idle, answer := none } } else t

/-! ## Command frames -/

/-- Commands taken during the rebuild: STAT, ID and EVENT (R158, R166). -/
def takenInRebuild : HostCommand → Bool
  | .idReport => true
  | .stat => true
  | .event => true
  | _ => false

/-- A frame without fault is taken: the unread answer is discarded, and the command judged (R155, R158, R166). -/
def takeFrame (c : HostCommand) (params : List Byte) (body : State → State) (s : State) : State :=
  let t := { s with port := { s.port with state := .taken, answer := none, command := none } }
  if !running t && !takenInRebuild c then answer .notReady [] t
  else if params.length ≠ paramLength c then answer .badParam [] t
  else body t

/-- A host command's transaction: its frame, the complete bytes after the check byte, which the port disregards (R151,
R154), and HCS# high, where it is judged under R155, R156 and R166 and then carried out by its body. -/
def hostCommand (c : HostCommand) (params : Params) (body : State → State) (s : State) : State :=
  if portClosed s then releasePins s
  else
    let t := endTransaction (3 + params.bytes.length + params.extra) [] s
    if t.port.state = .taken then t
    else if 140 < params.bytes.length then answer .badFrame [faultCode .length] t
    else takeFrame c params.bytes body t

/-- A parameter field outside its range (R166). -/
def badParam (s : State) : State := answer .badParam [] s

/-! ## The commands -/

/-- TRANSACTION_BEGIN (R151, R152). -/
def execTransactionBegin (s : State) : Host.Outcome State Fault Refusal :=
  if s.port.hcsLow then refuse .pinUnchanged
  else if s.startUp.stage = .held then proceed { s with port := { s.port with hcsLow := true, disregard := true } }
  else proceed (captureState s)

/-- ANSWER_READ (R160). -/
def execAnswerRead (bytes : Nat) (s : State) : Host.Outcome State Fault Refusal :=
  proceed (if portClosed s then releasePins s else answerRead bytes s)

/-- BAD_FRAME (R155, R156): answered outside TAKEN, ignored in it; an empty transaction changes nothing (R151). -/
def execBadFrame (bytes : List Byte) (s : State) : Host.Outcome State Fault Refusal :=
  if portClosed s then proceed (releasePins s)
  else if bytes = [] then proceed (endTransaction 0 [] s)
  else if bytes.head? = some 0xF0 then refuse .notAsReported
  else match frameFault bytes with
    | none => refuse .notAsReported
    | some f =>
      let t := endTransaction bytes.length [] s
      proceed (if t.port.state = .taken then t else answer .badFrame [faultCode f] t)

/-- FRAME_IGNORED (R155): a command transaction that ends in TAKEN. -/
def execFrameIgnored (bytes : List Byte) (s : State) : Host.Outcome State Fault Refusal :=
  if portClosed s then proceed (releasePins s)
  else if s.port.state = .taken && bytes.head? ≠ some 0xF0 then proceed (endTransaction bytes.length [] s)
  else refuse .notAsReported

/-- HCS_HIGH_AFTER_RESET (R151). -/
def execHcsHighAfterReset (s : State) : Host.Outcome State Fault Refusal :=
  if !s.port.hcsLow then refuse .pinUnchanged
  else if s.port.disregard then proceed (releasePins s)
  else refuse .notAsReported

end Sys2Proof.Machine
end

