-- ==== Sys2Proof/Machine/HostCommands.lean ====
section
/-! DEFINITION. The host commands that change the part: ACCEPT, FLOOR, LOAD BEGIN, LOAD DATA, LOAD END, LOAD ABORT,
PUBLISH, HOLD, RESUME, WIPE and RESTART (chapters Image Catalogue and Host Commands). -/

namespace Sys2Proof.Machine

/-! ## ACCEPT (R62, R63, R178) -/

/-- The record of a forward switch (R62). -/
def forwardRecord (s : State) : CommitRecord :=
  let bare := s.cat.activeState = .none
  { s.cat.recorded with
    active := some (stagingSlot s), activeKey := (stagingRec s).key
    stagingKey := if bare then none else (activeRec s).key
    role := if bare then .none else .retired }

/-- The record of a revert (R63). -/
def revertRecord (s : State) : CommitRecord :=
  { s.cat.recorded with
    active := some (stagingSlot s), activeKey := (stagingRec s).key, stagingKey := (activeRec s).key, role := .declined
    declined := activeVersion s }

/-- A switch taken: staging becomes SWITCHING, and its append is added (R62, R63). -/
def startSwitch (revert : Bool) (s : State) : State :=
  addAppend (if revert then revertRecord s else forwardRecord s)
    (setCommand .accept (setProcedure (.switch revert) (setStagingState .switching s)))

/-- ACCEPT is not refused for its state: no procedure is open and the staging version is the one expected. -/
def acceptNames (s : State) (version : BitVec 16) : Bool :=
  s.cat.procedure = .none && versionOf (stagingRec s).key = version

/-- ACCEPT (R62, R63, R178). -/
def acceptBody (params : List Byte) (s : State) : State :=
  let v := field16 params 0
  if v = 0 then badParam s
  else if s.cat.frozen then answer .worn (stagingPayload s) s
  else if acceptNames s v && s.cat.stagingState = .complete then startSwitch false s
  else if acceptNames s v && s.cat.stagingState = .retired && (stagingRec s).whole then
    if v < s.cat.recorded.floor then answer .refusedFloor (stagingPayload s ++ bytes16 s.cat.recorded.floor) s
    else startSwitch true s
  else answer .refusedState (stagingPayload s) s

/-! ## FLOOR (R65, R179) -/

/-- FLOOR (R65, R179). -/
def floorBody (params : List Byte) (s : State) : State :=
  let f := field16 params 0
  let payload := bytes16 s.cat.recorded.floor
  if s.cat.frozen then answer .worn payload s
  else if s.cat.procedure ≠ .none || s.cat.stagingState = .reclaiming || s.cat.stagingState = .loading then
    answer .refusedState payload s
  else if f < s.cat.recorded.floor || activeVersion s < f then answer .refusedFloor payload s
  else if f = s.cat.recorded.floor then answer .ok payload s
  else addAppend { s.cat.recorded with floor := f } (setCommand .floor (setProcedure .floor s))

/-! ## Origin loading (R66 to R68, R181 to R187) -/

/-- The steps of LOAD BEGIN (R66, R181). -/
def startLoad (s : State) : State :=
  let old := (stagingRec s).key
  let s1 := updateStaging SlotRecord.keyless
    (setStagingState .loading (setLoad .cleared (setCommand .loadBegin (setProcedure .loadBegin s))))
  let s2 := abandon s1
  let s3 := cancelKey old s2
  let s4 := updateStaging SlotRecord.unknowing s3
  let s5 := dropMarks (stagingSlot s4) s4
  let s6 := addWork (.eraseControl (marksRow (stagingSlot s5))) s5
  addAppend { s6.cat.recorded with stagingKey := none, role := .none } s6

/-- LOAD BEGIN (R66, R181). -/
def loadBeginBody (s : State) : State :=
  if s.cat.frozen then answer .worn [] s
  else if s.cat.procedure ≠ .none || s.cat.stagingState = .reclaiming || s.cat.stagingState = .loading ||
      s.startUp.family.isNone then answer .refusedState [] s
  else startLoad s

/-- LOAD DATA for a block and segment while staging is LOADING (R182). The states that the table of R182 does not name
do not occur then; they are answered as a programmed segment is (assumption log 15). -/
def loadSegment (b : Block) (g : Seg) (d : List Byte) (s : State) : State :=
  let t := setCommand (.loadData b g d) s
  if stagingBlock s b = .unknown || stagingBlock s b = .dead then loadErase b t
  else if (stagingBlock s b = .blank || stagingBlock s b = .filling) && !hasSeg (loadMask s b) g then loadProgram b g d t
  else answer .refusedState (loadPayload b (loadMask s b)) s

/-- LOAD DATA (R182, R183). -/
def loadDataBody (params : List Byte) (s : State) : State :=
  if 15 < (byteAt params 1).toNat then badParam s
  else if s.cat.stagingState ≠ .loading then answer .refusedState [] s
  else loadSegment (byteAt params 0).toFin (Fin.ofNat 16 (byteAt params 1).toNat) (params.drop 2) s

/-- LOAD END (R67, R184). -/
def loadEndBody (s : State) : State :=
  if s.cat.frozen then answer .worn [] s
  else if s.cat.stagingState ≠ .loading || s.cat.procedure ≠ .none then answer .refusedState [] s
  else match loadedManifest s.port.load with
    | none => answer .badImage [0, 1] s
    | some m =>
      let k := loadedKey s.port.load m
      if ofFamily s k && activeVersion s < k.version then loadEndStart k m s else answer .badImage [0, 2] s

/-- LOAD ABORT (R68, R187). -/
def loadAbortBody (s : State) : State :=
  if s.cat.stagingState = .loading && s.cat.procedure = .none then
    judgeTarget (answer .ok [] (setLoad .cleared
      (updateStaging (fun r => r.unknowing.keyless) (setStagingState .empty s))))
  else answer .refusedState [] s

/-! ## PUBLISH, HOLD, RESUME (R188, R189) -/

/-- A slot of a role holds an image that PUBLISH announces (R188). -/
def publishable (s : State) (role : Role) : Bool :=
  match role with
  | .active => s.cat.activeState = .present
  | .staging => s.cat.stagingState = .complete

/-- The RELEASE of a key submitted (R188). -/
def publishKey (k : Key) (count : Nat) (s : State) : State :=
  let f : Frame := .release k (BitVec.ofNat 8 count)
  match txAnswer s.line f with
  | .accepted => judge k s.startUp.straps.address (setCommand .publish (txSubmit f .catalogue s))
  | .noLink => answer .refusedState [linkCode s.line.link] s
  | .full => answer .refusedState [] s

/-- PUBLISH (R188). -/
def publishBody (params : List Byte) (s : State) : State :=
  match roleParam (byteAt params 0) with
  | none => badParam s
  | some role =>
    let r := slotRec s (roleSlot s role)
    match publishable s role, r.key with
    | true, some k => publishKey k (r.count.getD 0) s
    | _, _ => answer .refusedState [] s

/-- The state with the HOLD flag set or cleared. -/
def setHold (v : Bool) (s : State) : State := { s with fetch := { s.fetch with hold := v } }

/-- HOLD (R128, R189). -/
def holdBody (s : State) : State := answer .ok [] (closeGate (setHold true s))

/-- RESUME (R128, R189). -/
def resumeBody (s : State) : State := answer .ok [] (fetchFollow (setHold false s))

/-- WIPE (R190, R207). -/
def wipeBody (s : State) : State := wipeBegin (setCommand .wipe s)

/-- RESTART (R191): a device reset, which samples the straps anew. -/
def restartBody (pins : Straps) (left : Left) (s : State) : State :=
  deviceReset { s.pins with straps := pins } (cutShort left s)

/-- A frame of a command with no parameters would be taken and carried out now (R155, R166). -/
def wouldRestart (params : List Byte) (s : State) : Bool :=
  !portClosed s && s.port.state ≠ .taken && running s && params = []

/-! ## The commands -/

/-- ACCEPT (R178). -/
def execAccept (params : Params) (s : State) : Host.Outcome State Fault Refusal :=
  conclude s (hostCommand .accept params (acceptBody params.bytes) s)

/-- FLOOR (R179). -/
def execFloor (params : Params) (s : State) : Host.Outcome State Fault Refusal :=
  conclude s (hostCommand .floor params (floorBody params.bytes) s)

/-- LOAD BEGIN (R181). -/
def execLoadBegin (params : Params) (s : State) : Host.Outcome State Fault Refusal :=
  conclude s (hostCommand .loadBegin params loadBeginBody s)

/-- LOAD DATA (R182, R183). -/
def execLoadData (params : Params) (s : State) : Host.Outcome State Fault Refusal :=
  conclude s (hostCommand .loadData params (loadDataBody params.bytes) s)

/-- LOAD END (R184 to R186). -/
def execLoadEnd (params : Params) (s : State) : Host.Outcome State Fault Refusal :=
  conclude s (hostCommand .loadEnd params loadEndBody s)

/-- LOAD ABORT (R187). -/
def execLoadAbort (params : Params) (s : State) : Host.Outcome State Fault Refusal :=
  conclude s (hostCommand .loadAbort params loadAbortBody s)

/-- PUBLISH (R188). -/
def execPublish (params : Params) (s : State) : Host.Outcome State Fault Refusal :=
  conclude s (hostCommand .publish params (publishBody params.bytes) s)

/-- HOLD (R189). -/
def execHold (params : Params) (s : State) : Host.Outcome State Fault Refusal :=
  proceed (hostCommand .hold params holdBody s)

/-- RESUME (R189). -/
def execResume (params : Params) (s : State) : Host.Outcome State Fault Refusal :=
  proceed (hostCommand .resume params resumeBody s)

/-- WIPE (R190). -/
def execWipe (params : Params) (s : State) : Host.Outcome State Fault Refusal :=
  conclude s (hostCommand .wipe params wipeBody s)

/-- RESTART (R191). The job cut short leaves what the table of R40 gives. -/
def execRestart (params : Params) (pins : Straps) (left : Left) (s : State) : Host.Outcome State Fault Refusal :=
  if wouldRestart params.bytes s && !cutLegal left s then refuse .notAsReported
  else conclude s (hostCommand .restart params (restartBody pins left) s)

end Sys2Proof.Machine
end

