-- ==== Sys2Proof/Machine/Reports.lean ====
section
/-! DEFINITION. The host commands that report state or read the images: ID, IDENT, STAT, SLOTS, BLOCKS, PEERS, EVENT,
READ, CHECKSUM (chapter Host Commands). -/

namespace Sys2Proof.Machine

/-! ## Payloads (R218) -/

/-- The ID answer (R168, R218): the configuration fault reads 00h while the phase is REBUILDING. -/
def idPayload (s : State) : List Byte :=
  let u := s.startUp
  bytes16 u.vendor.vendor ++ bytes16 u.vendor.part ++ [u.vendor.revision] ++ bytes32 u.vendor.serial ++
    [flagByte u.vendor.matched, readingCode u.reading] ++ bytes16 (u.family.getD 0) ++
    [flagByte s.port.identSubmitted, u.straps.address.zeroExtend 8, u.straps.rate.zeroExtend 8, flagByte u.straps.serve,
      if running s then flagPair u.faultAddress u.faultFamily else 0]

/-- The STAT answer (R170, R218). -/
def statPayload (s : State) : List Byte :=
  [flagByte (running s), linkCode s.line.link, flagPair s.cat.frozen s.fetch.hold, BitVec.ofNat 8 (openCount s),
    BitVec.ofNat 8 s.fetch.poolFree] ++
  bytes16 (BitVec.ofNat 16 s.fetch.overrun) ++ bytes16 (BitVec.ofNat 16 s.line.framesSent) ++
  bytes16 (BitVec.ofNat 16 s.line.unechoed) ++ bytes16 (BitVec.ofNat 16 s.line.receiveErrors) ++
  [BitVec.ofNat 8 s.serve.queue.length] ++ bytes16 (BitVec.ofNat 16 s.serve.served) ++
  bytes16 (BitVec.ofNat 16 s.serve.refused) ++
  [BitVec.ofNat 8 s.notice.peers.length, BitVec.ofNat 8 (sparesLeft s.flash.spares)]

/-- The role of a physical slot (R42). -/
def roleOf (s : State) (x : Slot) : Role := if x = s.cat.activeSlot then .active else .staging

/-- The state byte of a slot part (R218). -/
def slotStateCode (s : State) (x : Slot) : Byte :=
  match roleOf s x with
  | .active => activeCode s.cat.activeState
  | .staging => stagingCode s.cat.stagingState

/-- A slot part of the SLOTS answer (R171, R218). -/
def slotPart (s : State) (x : Slot) : List Byte :=
  let r := slotRec s x
  [slotCode x, roleCode (roleOf s x), slotStateCode s x] ++ keyBytes (keySent r.key) ++
    [BitVec.ofNat 8 (r.count.getD 0)] ++ bytes16 (BitVec.ofNat 16 r.verifiedCount) ++
    bytes16 (BitVec.ofNat 16 r.deadCount)

/-- The SLOTS answer (R171, R218). -/
def slotsPayload (s : State) : List Byte :=
  slotPart s .a ++ slotPart s .b ++ bytes32 s.cat.recorded.seq ++ bytes16 s.cat.recorded.declined ++
    bytes16 s.cat.recorded.floor ++ keyBytes (keySent (s.cat.target.map Prod.fst)) ++
    [((s.cat.target.map Prod.snd).getD 0).zeroExtend 8, flagByte s.cat.frozen, procedureCode s.cat.procedure]

/-- The BLOCKS answer (R172, R218). -/
def blocksPayload (s : State) (role : Role) (first count : Nat) : List Byte :=
  let r := slotRec s (roleSlot s role)
  [slotCode (roleSlot s role)] ++ bytes16 (versionOf r.key) ++ [BitVec.ofNat 8 first] ++
    bytes16 (BitVec.ofNat 16 count) ++ (List.range count).map (fun i => blockCode (r.state (first + i)))

/-- The PEERS answer (R173, R218). -/
def peersPayload (s : State) (i : Nat) : List Byte :=
  [BitVec.ofNat 8 s.notice.peers.length, BitVec.ofNat 8 i] ++ ((s.notice.peers.drop i).take 10).flatMap peerBytes

/-! ## Bodies -/

/-- ID (R168): before the end of the start-up reads it waits. -/
def idBody (s : State) : State :=
  if s.startUp.stage = .reading then setCommand .idReport s else answer .ok (idPayload s) s

/-- STAT (R170): before the end of the start-up reads it waits. -/
def statBody (s : State) : State :=
  if s.startUp.stage = .reading then setCommand .stat s else answer .ok (statPayload s) s

/-- IDENT (R169). -/
def identBody (params : List Byte) (s : State) : State :=
  let f := field16 params 0
  if !legalFamily f then badParam s
  else if s.startUp.reading = .blank && !s.port.identSubmitted then
    submit .host (.programNode f)
      { s with port := { s.port with identSubmitted := true, command := some (.ident f) } }
  else answer .refusedState [readingCode s.startUp.reading] s

/-- SLOTS (R171). -/
def slotsBody (s : State) : State := answer .ok (slotsPayload s) s

/-- BLOCKS (R172). -/
def blocksBody (params : List Byte) (s : State) : State :=
  let first := (byteAt params 1).toNat
  let count := (field16 params 2).toNat
  match roleParam (byteAt params 0) with
  | some role =>
    if 1 ≤ count && first + count ≤ 256 then answer .ok (blocksPayload s role first count) s else badParam s
  | none => badParam s

/-- PEERS (R173). -/
def peersBody (params : List Byte) (s : State) : State :=
  let i := (byteAt params 0).toNat
  if i ≤ 23 then answer .ok (peersPayload s i) s else badParam s

/-- EVENT (R164, R174). -/
def eventBody (params : List Byte) (s : State) : State :=
  let k := (byteAt params 0).toNat
  if 1 ≤ k && k ≤ 10 then
    let taken := s.port.events.take k
    answer .ok (BitVec.ofNat 8 taken.length :: taken.flatMap eventBytes)
      { s with port := { s.port with events := s.port.events.drop k } }
  else badParam s

/-- READ (R175). -/
def readBody (params : List Byte) (s : State) : State :=
  let offset := (field16 params 2).toNat
  let length := (field16 params 4).toNat
  match roleParam (byteAt params 0) with
  | some role =>
    if 1 ≤ length && length ≤ 256 && offset + length ≤ 2048 then
      submit .host (.readRange role (byteAt params 1).toFin offset length) (setCommand .read s)
    else badParam s
  | none => badParam s

/-- CHECKSUM (R176). -/
def checksumBody (params : List Byte) (s : State) : State :=
  let first := (byteAt params 1).toNat
  let count := (byteAt params 2).toNat
  match roleParam (byteAt params 0) with
  | some role =>
    if 1 ≤ count && count ≤ 32 && first + count ≤ 256 then checksumNext role first count [] s else badParam s
  | none => badParam s

/-! ## The commands -/

/-- ID (R168). -/
def execIdReport (params : Params) (s : State) : Host.Outcome State Fault Refusal :=
  proceed (hostCommand .idReport params idBody s)

/-- IDENT (R169). -/
def execIdent (params : Params) (s : State) : Host.Outcome State Fault Refusal :=
  proceed (hostCommand .ident params (identBody params.bytes) s)

/-- STAT (R170). -/
def execStat (params : Params) (s : State) : Host.Outcome State Fault Refusal :=
  proceed (hostCommand .stat params statBody s)

/-- SLOTS (R171). -/
def execSlots (params : Params) (s : State) : Host.Outcome State Fault Refusal :=
  proceed (hostCommand .slots params slotsBody s)

/-- BLOCKS (R172). -/
def execBlocks (params : Params) (s : State) : Host.Outcome State Fault Refusal :=
  proceed (hostCommand .blocks params (blocksBody params.bytes) s)

/-- PEERS (R173). -/
def execPeers (params : Params) (s : State) : Host.Outcome State Fault Refusal :=
  proceed (hostCommand .peers params (peersBody params.bytes) s)

/-- EVENT (R174). -/
def execEvent (params : Params) (s : State) : Host.Outcome State Fault Refusal :=
  proceed (hostCommand .event params (eventBody params.bytes) s)

/-- READ (R175). -/
def execRead (params : Params) (s : State) : Host.Outcome State Fault Refusal :=
  proceed (hostCommand .read params (readBody params.bytes) s)

/-- CHECKSUM (R176, R177). -/
def execChecksum (params : Params) (s : State) : Host.Outcome State Fault Refusal :=
  proceed (hostCommand .checksum params (checksumBody params.bytes) s)

end Sys2Proof.Machine
end

