-- ==== Sys2Proof/Machine/Reset.lean ====
section
/-! DEFINITION. The commands of power, reset and the start-up reads (R40, R192 to R197). -/

namespace Sys2Proof.Machine

/-- The pins after a cause of a device reset (R192). -/
def resetPins (cause : ResetCause) (straps : Straps) (p : Pins) : Pins :=
  match cause with
  | .powerOn low => { power := true, resetLow := low, straps := straps }
  | .resetLow => { p with resetLow := true, straps := straps }

/-- DEVICE_RESET (R40, R192, R193). -/
def execDeviceReset (cause : ResetCause) (pins : Straps) (left : Left) (s : State) : Host.Outcome State Fault Refusal :=
  if cutLegal left s then proceed (deviceReset (resetPins cause pins s.pins) (cutShort left s))
  else refuse .notAsReported

/-- POWER_LOSS (R40): the job in service is cut short, and no volatile state survives. -/
def execPowerLoss (left : Left) (s : State) : Host.Outcome State Fault Refusal :=
  if !s.pins.power then refuse .pinUnchanged
  else if cutLegal left s then proceed (deviceReset { s.pins with power := false } (cutShort left s))
  else refuse .notAsReported

/-- START_UP_BEGINS (R192, R193): RESET# is high and power present, and the straps are sampled. -/
def execStartUpBegins (pins : Straps) (s : State) : Host.Outcome State Fault Refusal :=
  if s.startUp.stage = .held && s.pins.power then
    proceed { s with
      pins := { s.pins with resetLow := false, straps := pins }
      startUp := .reset .reading pins }
  else refuse .wrongPhase

/-- The state as the start-up reads hand it over (R39, R194, R196). -/
def readsHandedOver (s : State) : State :=
  { s with
    startUp := readStartUp s.mem s.startUp.straps
    cat := readCatalogue s.mem
    flash := { s.flash with spares := readSpares s.mem } }

/-- A voided store raises ARRAY-FAULT with ERASE CONTROL (R197), before the LINK-CHANGE that the same event may raise, which
R162 leaves open (DESIGN CHOICE, assumption log 35). -/
def voidedStoreFault (s : State) : State :=
  match s.cat.frozen, voidedUnit s.mem with
  | true, some u => raise .arrayFault (faultDetail (controlNumber u.unit) 9) s
  | _, _ => s

/-- An ID or STAT that has waited for the start-up reads is answered (R168, R170, R194). -/
def answerWaiting (s : State) : State :=
  match s.port.command with
  | some .idReport => answer .ok (idPayload s) s
  | some .stat => answer .ok (statPayload s) s
  | _ => s

/-- START_UP_READS_END (R194, R196, R197): the rebuild begins. -/
def execStartUpReadsEnd (s : State) : Host.Outcome State Fault Refusal :=
  if s.startUp.stage = .reading then
    conclude s (rebuildFrom .active 0 (answerWaiting (voidedStoreFault (readsHandedOver s))))
  else refuse .wrongPhase

end Sys2Proof.Machine
end

