-- ==== Sys2Proof/Machine/Timers.lean ====
section
/-! DEFINITION. The commands of the timers: each lets the time its timer has left pass, and then takes the expiry
(assumption log 4). -/

namespace Sys2Proof.Machine

/-- JOIN_TIMER (R86, R94): 300 ms after the entry to JOINING and every 1,000 ms after that, a NOTICE is requested. -/
def execJoinTimer (s : State) : Host.Outcome State Fault Refusal :=
  match s.line.link, s.line.joinLeft with
  | .joining, some left =>
    let t := elapse left s
    proceed (submitNotice { t with line := { t.line with joinLeft := some 1000 } })
  | _, _ => refuse .timerNotRunning

/-- LISTEN_ONLY_TIMER (R87). A held timer does not expire. -/
def execListenOnlyTimer (s : State) : Host.Outcome State Fault Refusal :=
  match s.line.listen with
  | .running left => proceed (enterJoining (elapse left s))
  | _ => refuse .timerNotRunning

/-- PERIODIC_TIMER (R92, item 1). -/
def execPeriodicTimer (s : State) : Host.Outcome State Fault Refusal :=
  match s.line.link, s.notice.periodicLeft with
  | .active, some left =>
    let t := elapse left s
    proceed (submitNotice { t with notice := { t.notice with periodicLeft := none } })
  | _, _ => refuse .timerNotRunning

/-- SPACING_TIMER (R92, item 3): the spacing timer reaches 250 ms while the change flag is set. -/
def execSpacingTimer (s : State) : Host.Outcome State Fault Refusal :=
  match s.line.link, s.notice.spacing with
  | .active, some t =>
    if s.notice.changed then proceed (submitIfDifferent (elapse (250 - t) s)) else refuse .timerNotRunning
  | _, _ => refuse .timerNotRunning

/-- PEER_AGED_OUT (R97). -/
def execPeerAgedOut (addr : Addr) (s : State) : Host.Outcome State Fault Refusal :=
  match findPeer s addr with
  | some p =>
    let t := elapse (6000 - p.heard) s
    proceed (setPeers (t.notice.peers.filter (fun q => q.addr ≠ addr)) t)
  | none => refuse .noSuchPeer

/-- CLAIM_WINDOW (R99, R114). -/
def execClaimWindow (ctx : Fin 4) (s : State) : Host.Outcome State Fault Refusal :=
  if (ctxOf s ctx).state = .claiming then
    let t := addTally (ctxOf s ctx).asked (elapse (ctxOf s ctx).claimLeft s)
    proceed (fetchFollow (enterAsking ctx (updateCtx ctx (fun c => { c with server := none }) t)))
  else refuse .timerNotRunning

/-- SILENCE_TIMER (R123). -/
def execSilenceTimer (ctx : Fin 4) (s : State) : Host.Outcome State Fault Refusal :=
  if (ctxOf s ctx).state = .receiving then
    proceed (fetchFollow (serveEnded ctx (elapse (ctxOf s ctx).silenceLeft s)))
  else refuse .timerNotRunning

/-- DEFERRAL_TIMER (R108, R127): the oldest entry leaves, and opening goes on. -/
def execDeferralTimer (s : State) : Host.Outcome State Fault Refusal :=
  match s.fetch.deferral with
  | d :: _ =>
    let t := elapse d.left s
    proceed (openContexts { t with fetch := { t.fetch with deferral := t.fetch.deferral.drop 1 } })
  | [] => refuse .timerNotRunning

/-- The oldest WAITING entry, whose delay timer expires first (R139). -/
def waitingEntry (s : State) : Option ServeEntry := s.serve.queue.find? (fun e => e.state = .waiting)

/-- SERVE_DELAY (R139, R140). -/
def execServeDelay (s : State) : Host.Outcome State Fault Refusal :=
  match waitingEntry s with
  | some e => proceed (enterOffering e.key e.block (elapse e.delayLeft s))
  | none => refuse .timerNotRunning

end Sys2Proof.Machine
end

