-- ==== Sys2Proof/Machine/Dispatch.lean ====
section
/-! DEFINITION. The one match from a command to its meaning. -/

namespace Sys2Proof.Machine

def exec (i : Instr) (s : State) : Host.Outcome State Fault Refusal :=
  match i with
  | .deviceReset cause pins left => Sys2Proof.Machine.execDeviceReset cause pins left s
  | .powerLoss left => Sys2Proof.Machine.execPowerLoss left s
  | .startUpReadsEnd => Sys2Proof.Machine.execStartUpReadsEnd s
  | .eraseAttempt left => Sys2Proof.Machine.execEraseAttempt left s
  | .spareEntryProgram left => Sys2Proof.Machine.execSpareEntryProgram left s
  | .programSegment left => Sys2Proof.Machine.execProgramSegment left s
  | .verifyBlock => Sys2Proof.Machine.execVerifyBlock s
  | .readSegment => Sys2Proof.Machine.execReadSegment s
  | .readRange => Sys2Proof.Machine.execReadRange s
  | .checkBlock => Sys2Proof.Machine.execCheckBlock s
  | .setMark left => Sys2Proof.Machine.execSetMark left s
  | .appendRecord left => Sys2Proof.Machine.execAppendRecord left s
  | .overtime left => Sys2Proof.Machine.execOvertime left s
  | .lineIdle => Sys2Proof.Machine.execLineIdle s
  | .contentionLost => Sys2Proof.Machine.execContentionLost s
  | .bitError => Sys2Proof.Machine.execBitError s
  | .attemptEnd echoed => Sys2Proof.Machine.execAttemptEnd echoed s
  | .frameDiscarded bits dominantDelimiter => Sys2Proof.Machine.execFrameDiscarded bits dominantDelimiter s
  | .clash => Sys2Proof.Machine.execClash s
  | .releaseReceived src key count => Sys2Proof.Machine.execReleaseReceived src key count s
  | .offerReceived src key block mask => Sys2Proof.Machine.execOfferReceived src key block mask s
  | .askReceived src target key block mask => Sys2Proof.Machine.execAskReceived src target key block mask s
  | .segmentReceived src key block index data => Sys2Proof.Machine.execSegmentReceived src key block index data s
  | .noticeReceived src notice => Sys2Proof.Machine.execNoticeReceived src notice s
  | .joinTimer => Sys2Proof.Machine.execJoinTimer s
  | .listenOnlyTimer => Sys2Proof.Machine.execListenOnlyTimer s
  | .periodicTimer => Sys2Proof.Machine.execPeriodicTimer s
  | .spacingTimer => Sys2Proof.Machine.execSpacingTimer s
  | .peerAgedOut addr => Sys2Proof.Machine.execPeerAgedOut addr s
  | .claimWindow ctx => Sys2Proof.Machine.execClaimWindow ctx s
  | .silenceTimer ctx => Sys2Proof.Machine.execSilenceTimer ctx s
  | .deferralTimer => Sys2Proof.Machine.execDeferralTimer s
  | .serveDelay => Sys2Proof.Machine.execServeDelay s
  | .transactionBegin => Sys2Proof.Machine.execTransactionBegin s
  | .answerRead bytes => Sys2Proof.Machine.execAnswerRead bytes s
  | .badFrame bytes => Sys2Proof.Machine.execBadFrame bytes s
  | .frameIgnored bytes => Sys2Proof.Machine.execFrameIgnored bytes s
  | .idReport params => Sys2Proof.Machine.execIdReport params s
  | .ident params => Sys2Proof.Machine.execIdent params s
  | .stat params => Sys2Proof.Machine.execStat params s
  | .slots params => Sys2Proof.Machine.execSlots params s
  | .blocks params => Sys2Proof.Machine.execBlocks params s
  | .peers params => Sys2Proof.Machine.execPeers params s
  | .event params => Sys2Proof.Machine.execEvent params s
  | .read params => Sys2Proof.Machine.execRead params s
  | .checksum params => Sys2Proof.Machine.execChecksum params s
  | .accept params => Sys2Proof.Machine.execAccept params s
  | .floor params => Sys2Proof.Machine.execFloor params s
  | .loadBegin params => Sys2Proof.Machine.execLoadBegin params s
  | .loadData params => Sys2Proof.Machine.execLoadData params s
  | .loadEnd params => Sys2Proof.Machine.execLoadEnd params s
  | .loadAbort params => Sys2Proof.Machine.execLoadAbort params s
  | .publish params => Sys2Proof.Machine.execPublish params s
  | .hold params => Sys2Proof.Machine.execHold params s
  | .resume params => Sys2Proof.Machine.execResume params s
  | .wipe params => Sys2Proof.Machine.execWipe params s
  | .restart params pins left => Sys2Proof.Machine.execRestart params pins left s
  | .startUpBegins pins => Sys2Proof.Machine.execStartUpBegins pins s
  | .hcsHighAfterReset => Sys2Proof.Machine.execHcsHighAfterReset s

end Sys2Proof.Machine
end

