-- ==== Sys2Proof/WellFormed.lean ====
section
/-! DEFINITION. When a command's operands are ones the outside of the part can produce: the checks are Bools. -/

namespace Sys2Proof

/-- The bytes an array operation leaves fit the unit they stand in (R1). -/
def Left.wellFormed : Left → Bool
  | .expected => true
  | .worn c => c.length ≤ 2048
  | .cut k => k.length ≤ 2048

/-- A source address a correctly received frame can carry: 1 to 126 (R72, check 3). -/
def legalSource (a : Addr) : Bool := a ≠ 0 && a ≠ 127

/-- A parameter field of a command frame: 0 to 140 bytes (R154). -/
def legalParams (p : Params) : Bool := p.bytes.length ≤ 140

/-- The operands of a command are well formed. -/
def Instr.wellFormed : Instr → Bool
  | .deviceReset _ _ l => l.wellFormed
  | .powerLoss l => l.wellFormed
  | .startUpReadsEnd => true
  | .eraseAttempt l => l.wellFormed
  | .spareEntryProgram l => l.wellFormed
  | .programSegment l => l.wellFormed
  | .verifyBlock => true
  | .readSegment => true
  | .readRange => true
  | .checkBlock => true
  | .setMark l => l.wellFormed
  | .appendRecord l => l.content.wellFormed
  | .overtime l => l.content.wellFormed
  | .lineIdle => true
  | .contentionLost => true
  | .bitError => true
  | .attemptEnd _ => true
  | .frameDiscarded bits _ => bits ≠ []
  | .clash => true
  | .releaseReceived src _ _ => legalSource src
  | .offerReceived src _ _ mask => legalSource src && mask ≠ 0
  | .askReceived src target _ _ mask => legalSource src && target.toNat ≤ 126 && mask ≠ 0
  | .segmentReceived src _ _ index data => legalSource src && index.toNat ≤ 15 && data.length = 128
  | .noticeReceived src _ => legalSource src
  | .joinTimer => true
  | .listenOnlyTimer => true
  | .periodicTimer => true
  | .spacingTimer => true
  | .peerAgedOut a => legalSource a
  | .claimWindow _ => true
  | .silenceTimer _ => true
  | .deferralTimer => true
  | .serveDelay => true
  | .transactionBegin => true
  | .answerRead _ => true
  | .badFrame bytes => bytes.head? ≠ some 0xF0
  | .frameIgnored bytes => bytes.head? ≠ some 0xF0
  | .idReport p => legalParams p
  | .ident p => legalParams p
  | .stat p => legalParams p
  | .slots p => legalParams p
  | .blocks p => legalParams p
  | .peers p => legalParams p
  | .event p => legalParams p
  | .read p => legalParams p
  | .checksum p => legalParams p
  | .accept p => legalParams p
  | .floor p => legalParams p
  | .loadBegin p => legalParams p
  | .loadData p => legalParams p
  | .loadEnd p => legalParams p
  | .loadAbort p => legalParams p
  | .publish p => legalParams p
  | .hold p => legalParams p
  | .resume p => legalParams p
  | .wipe p => legalParams p
  | .restart p _ l => legalParams p && l.wellFormed
  | .startUpBegins _ => true
  | .hcsHighAfterReset => true

end Sys2Proof
end

