-- ==== Sys2Proof/Safety.lean ====
section
/-! DEFINITION. The properties of a safe run, which hold right after reset and which every step is meant to keep, and the words that
the statements share: frames, answers, readiness of the port. -/

namespace Sys2Proof.Machine

/-- The commands that can write the array: the ends of its erases and programs, the overtime that stops one, and the resets
that cut one short (R2, R3, R19, R40). -/
def writesArray : Instr → Bool
  | .eraseAttempt _ => true
  | .spareEntryProgram _ => true
  | .programSegment _ => true
  | .setMark _ => true
  | .appendRecord _ => true
  | .overtime _ => true
  | .deviceReset .. => true
  | .powerLoss _ => true
  | .restart .. => true
  | _ => false

/-- The commands that bring levels of the power and RESET# pins, and of the straps as a reset or the start-up samples them
(R192, R193). -/
def movesPins : Instr → Bool
  | .deviceReset .. => true
  | .powerLoss _ => true
  | .restart .. => true
  | .startUpBegins _ => true
  | _ => false

/-- The strap levels that a command brings beside its own effect: those at the end of an append or of a stopped operation,
which may end WIPE (R193, R210). -/
def strapsBrought : Instr → Option Straps
  | .appendRecord left => some left.straps
  | .overtime left => some left.straps
  | _ => none

/-- The array is in its canonical form. -/
abbrev MemoryForm (s : State) : Prop := Memory.wf s.mem

/-- The event queue holds at most one entry of each kind, each with a count of 1 to 255 (R162). -/
abbrev EventsLegal (s : State) : Prop :=
  (s.port.events.map EventEntry.kind).Nodup ∧ ∀ e ∈ s.port.events, 1 ≤ e.count ∧ e.count ≤ 255

/-- A fetch engine in its bounds: 24 pool buffers, free, held by a context or held for a program in flight; an IDLE context
holds none; at most 5 tries; the overrun counter; at most 8 deferrals (R105, R110, R117, R119, R127). -/
abbrev FetchFits (f : FetchEngine) : Prop :=
  f.poolFree + (f.ctxs.toList.map (fun c => c.buffers.length)).sum + f.poolInFlight = 24 ∧
    (∀ c ∈ f.ctxs.toList, c.state = .idle → c.buffers = []) ∧ (∀ c ∈ f.ctxs.toList, c.tries ≤ 5) ∧
    f.overrun ≤ 65535 ∧ f.deferral.length ≤ 8

/-- The fields that R95 gives an entry: address, last-heard age, notice part, tally, last-asked age. -/
def Peer.fields (p : Peer) : Addr × Nat × Option NoticePart × Nat × Nat := (p.addr, p.heard, p.part, p.tally, p.asked)

/-- A serve engine in its bounds: at most 8 entries, and its counters (R133, R150). -/
abbrev ServeFits (v : ServeEngine) : Prop := v.queue.length ≤ 8 ∧ v.served ≤ 65535 ∧ v.refused ≤ 65535

/-- A peer table in its bounds: at most 24 entries, each address once, no two last heard at one moment (by the
model's count, assumption log 22), ages and tallies within their limits (R95 to R97, R99, R100). -/
abbrev PeersFit (ps : List Peer) : Prop :=
  ps.length ≤ 24 ∧ (ps.map Peer.addr).Nodup ∧ (ps.map Peer.laterFrames).Nodup ∧ ∀ p ∈ ps, p.heard ≤ 6000 ∧ p.tally ≤ 3 ∧ p.asked ≤ 65535

/-- The counters of the line controller in their ranges (R76, R80, R83). -/
abbrev LineCounts (l : LineController) : Prop :=
  l.framesSent ≤ 65535 ∧ l.unechoed ≤ 65535 ∧ l.receiveErrors ≤ 65535 ∧ l.echoMiss ≤ 16

/-- Each request queue holds no more jobs than its capacity, and the fetch-run count is 0 to 4 (R20, R23). -/
abbrev RequestQueuesFit (f : Sequencer) : Prop :=
  f.recordQ.length ≤ 2 ∧ f.fetchQ.length ≤ 4 ∧ f.serveQ.length ≤ 2 ∧ f.hostQ.length ≤ 1 ∧ f.fetchRun ≤ 4

/-- The transmit queue holds no more entries of a class than its reservation (R77). -/
abbrev TransmitQueueFits (l : LineController) : Prop := ∀ cls : Fin 5, classCount l.queue cls ≤ reservation cls

/-- The tables, queues and counters of a part are within their bounds. -/
abbrev Bounded (s : State) : Prop :=
  FetchFits s.fetch ∧ ServeFits s.serve ∧ PeersFit s.notice.peers ∧ LineCounts s.line

/-- Before the end of the rebuild the link is OFFLINE, and the LISTEN-ONLY timer stands only in LISTEN-ONLY (R85, R87,
R88). -/
abbrev LinkLegal (s : State) : Prop :=
  (s.startUp.stage ≠ .running → s.line.link = .offline) ∧
    (s.line.listen ≠ .stopped → s.line.link = .listenOnly)

/-- No job in service waits to end with PROTECTED: such a job ends in the event that takes it (R25). -/
abbrev NothingProtected (s : State) : Prop := ∀ v, s.flash.service = some v → v.op ≠ .protectedReturn

/-- The slot that an erase or program without the wipe mark names (R18, R25). -/
def guardedSlot : Job → Option Slot
  | .eraseUnit req x _ => if req = .wipe then none else some x
  | .programSegment req x _ _ _ => if req = .wipe then none else some x
  | _ => none

/-- The active-slot law (R25): no erase or program without the wipe mark that names the active slot is in service, and no
job in service waits to end with PROTECTED. -/
abbrev ActiveSpared (s : State) : Prop :=
  ∀ v, s.flash.service = some v → v.op ≠ .protectedReturn ∧ guardedSlot v.job ≠ some s.cat.activeSlot

/-- Until the start-up reads have ended, every block but the start-up unit and the host port stands as the device reset left
it; so no job is in service or waits (R39, R85, R158, R192, R194, R204). -/
abbrev AtRest (s : State) : Prop :=
  s.startUp.stage = .held ∨ s.startUp.stage = .reading →
    s.flash = .reset ∧ s.cat = .reset ∧ s.line = .reset ∧ s.notice = .reset ∧ s.fetch = .reset ∧ s.serve = .reset

/-- The part is out of reset and the port takes part in transactions, with no command in progress (R151, R155). -/
abbrev PortReady (s : State) : Prop := portClosed s = false ∧ s.port.state ≠ .taken

/-- The array operation of a job in service touches no unit of the active slot: an erase or program of a block names the other
slot, and every other job makes only the operation of its kind, in the unit of its kind (R18, R25). -/
def sparesActive (s : State) (v : Service) : Bool :=
  match v.job with
  | .eraseUnit _ x _ => x ≠ s.cat.activeSlot
  | .programSegment _ x _ _ d => x ≠ s.cat.activeSlot && d.length = 128
  | .eraseControl _ => true
  | .appendRecord _ q _ => q ≤ 31 && v.op = .main
  | _ => v.op = .main

/-- The jobs that wait in the request queues and the record work list. -/
def waitingJobs (s : State) : List Job :=
  s.flash.recordQ ++ s.flash.fetchQ ++ s.flash.serveQ ++ s.flash.hostQ ++ s.cat.work

/-- No job that waits would be returned PROTECTED if it were taken now (R25). -/
abbrev QueuesSpareActive (s : State) : Prop := ∀ j ∈ waitingJobs s, (takeJob s j).op ≠ .protectedReturn

/-- The sequencer is idle: no job in service and none waiting (R22). -/
abbrev SequencerIdle (s : State) : Prop := s.flash.service = none ∧ s.flash.noJobs = true

/-- The start-up unit and the blocks of the distribution line are as they were. -/
abbrev DistributionKept (s t : State) : Prop :=
  t.startUp = s.startUp ∧ t.line = s.line ∧ t.notice = s.notice ∧ t.fetch = s.fetch ∧ t.serve = s.serve

/-- The catalogue is as it was, but for the work it hands to the sequencer (R50). -/
abbrev CatalogueKept (s t : State) : Prop := t.cat = { s.cat with work := t.cat.work }

/-- A record job has ended FAILED: FROZEN is set, the waiting record jobs and the record work list are gone, the recorded view
is as it was, and ARRAY-FAULT names the control unit and the job kind (beside it, a rebuild that goes on may raise its own
events) (R38, R52, R54). -/
abbrev RecordJobFailed (s t : State) (unit : Nat) (kind : Byte) : Prop :=
  t.cat.frozen = true ∧ t.flash.recordQ = [] ∧ t.cat.work = [] ∧ t.cat.recorded = s.cat.recorded ∧
    (s.startUp.rebuild = .idle → t.port.events = raiseIn .arrayFault (faultDetail unit kind) s.port.events)

/-- No WIPE procedure is open (R207). -/
abbrev NoWipe (s : State) : Prop := ∀ step failed, s.cat.procedure ≠ .wipe step failed

/-- A good frame from another station's address comes in: the link receives, and the source is a legal address that is not
this station's own (R72, R80, R82). -/
abbrev Heard (s : State) (src : Addr) : Prop :=
  s.line.link ≠ .offline ∧ legalSource src = true ∧ src ≠ s.startUp.straps.address

/-- The part after a frame from another station's address has reached the line controller and the peer table: echoed where
the link echoes, and touched (R69, R75, R82, R96). -/
def afterTouch (src : Addr) (s : State) : State :=
  { s with
    line := { s.line with idleCount := 0, echoDriven := linkEchoes s.line.link }
    notice := { s.notice with peers := touched src s.notice.peers } }

/-- The part as the transaction of a command ends: its frame and the bytes clocked after it (R151, R154). -/
def frameClocked (p : Params) (s : State) : State := endTransaction (3 + p.bytes.length + p.extra) [] s

/-- The part as a command frame without fault is taken (R151, R155). -/
def frameTaken (p : Params) (s : State) : State :=
  { frameClocked p s with
    port := { (frameClocked p s).port with state := .taken, answer := none, command := none } }

/-- The port's state and answer after a command has ended with a result and a payload (R157, R159). -/
abbrev Answered (t : State) (r : ResultCode) (payload : List Byte) : Prop :=
  t.port.state = .answered ∧ t.port.answer = some { result := r, payload := payload } ∧ t.port.command = none

/-- The transmit queue after this station's NOTICE as it stands has been submitted with none on the line (R77, R79, R90). -/
def withNotice (s : State) : List TxEntry :=
  s.line.queue.filter (fun e => frameClass e.frame ≠ 4) ++
    [{ frame := .notice (noticeContent s), owner := .noticeUnit, attempts := 0, onLine := false, live := true }]

/-- A NOTICE has been submitted and ACCEPTED: the spacing timer starts anew, no change is left and none is owed (R92, R93; assumption
log 38). -/
abbrev NoticeSent (s t : State) : Prop :=
  t.line.queue = withNotice s ∧ t.notice.spacing = some 0 ∧ t.notice.changed = false ∧ t.notice.owed = false ∧
    t.notice.last = some (noticeContent s)

/-- The port takes part in transactions, no command is in progress, and the phase is RUNNING (R151, R155, R158). -/
abbrev PortRuns (s : State) : Prop := PortReady s ∧ running s = true

end Sys2Proof.Machine
end

