-- ==== Sys2Proof/Certificates/Slice0/Obligations.lean ====
section
/-! DEFINITION. The statements for the provers. Every one about a command says that exec answers a next state, and what the
next state holds; OnlyArrayCommandsWrite and CommandKeepsQueueAndPins give the frame of the array, the queue and the pins for
all commands at once. -/

open Sys2Proof Sys2Proof.Machine

/-! ## The machine as a whole -/

/-- A step runs the front command on the state with the queue's rest; on an empty queue a millisecond passes (the model's
choice, assumption log 5). -/
def Obligations.StepRunsFrontCommand : Prop :=
  (∀ (c : Instr) (rest : List Instr) (s : State), s.pending = c :: rest → step s = exec c (s.withPending rest)) ∧
    ∀ s : State, s.pending = [] → step s = .next (elapse 1 s)

/-- No command changes the queue of waiting commands. Only resets and the start-up's beginning change the pins, but for the
strap levels that the end of an append or an overtime brings (the model's choice, assumption log 23). -/
def Obligations.CommandKeepsQueueAndPins : Prop :=
  ∀ (c : Instr) (s t : State), exec c s = .next t → t.pending = s.pending ∧
    (movesPins c = false → t.pins = (match strapsBrought c with
      | none => s.pins
      | some straps => { s.pins with straps := straps }))

/-- Only the ends of erases and programs, overtimes and resets change the array, and they change it only as the operation in
service does. -/
def Obligations.OnlyArrayCommandsWrite : Prop :=
  ∀ (c : Instr) (s t : State), exec c s = .next t →
    (writesArray c = false → t.mem = s.mem) ∧
    (t.mem = s.mem ∨ ∃ (v : Service) (left : Left), s.flash.service = some v ∧ t.mem = operationLeaves s v left)

/-- No command changes a byte of a current unit of the active slot, as long as the job in service names no block of it
(R25: the check at the take sees to that for every job without the wipe mark). -/
def Obligations.ActiveSlotUntouched : Prop :=
  ∀ (c : Instr) (s t : State), exec c s = .next t → Memory.wf s.mem →
    (∀ v, s.flash.service = some v → sparesActive s v = true) →
    ∀ (b : Block) (i : Nat), i < 2048 →
      Memory.read t.mem (unitAddr (currentUnit s.flash.spares s.cat.activeSlot b) i) =
        Memory.read s.mem (unitAddr (currentUnit s.flash.spares s.cat.activeSlot b) i)

/-- Every step keeps the array in its canonical form (the model's form of the array, assumption log 2). -/
def Obligations.MemoryFormKept : Prop :=
  ∀ s t : State, step s = .next t → MemoryForm s → MemoryForm t

/-- Every step keeps the event queue at one entry of each kind, with a count of 1 to 255. -/
def Obligations.EventQueueKept : Prop :=
  ∀ s t : State, step s = .next t → EventsLegal s → EventsLegal t

/-- Every step keeps the request queues within their capacities, the fetch-run count within 0 to 4, and the transmit queue
within the reservation of each class. -/
def Obligations.QueuesKept : Prop :=
  ∀ s t : State, step s = .next t →
    (RequestQueuesFit s.flash → RequestQueuesFit t.flash) ∧ (TransmitQueueFits s.line → TransmitQueueFits t.line)

/-- Every step keeps the 24 pool buffers, the tries, the deferral list, the serve queue, the peer table and the counters in
their bounds; the count by which no two peers were last heard at one moment is the model's field (assumption log 22). -/
def Obligations.BoundsKept : Prop :=
  ∀ s t : State, step s = .next t → Bounded s → Bounded t

/-- Every step keeps the link OFFLINE until the rebuild has ended, and the LISTEN-ONLY timer stopped outside LISTEN-ONLY. -/
def Obligations.LinkKept : Prop :=
  ∀ s t : State, step s = .next t → LinkLegal s → LinkLegal t

/-- The active-slot law. Every step keeps it that no erase or program without the wipe mark in service names the active slot,
and, with it, that before the end of the start-up reads no job is in service or waits. Such a job of a fetch context, taken as
the job before it ends, ends at once with PROTECTED: its context is released, the sequencer goes on, and the array is
unchanged. A job with the wipe mark is taken whichever slot it names (R25). -/
def Obligations.ProtectedJobsEnd : Prop :=
  (∀ s t : State, step s = .next t → (NothingProtected s → NothingProtected t) ∧
    (ActiveSpared s → AtRest s → ActiveSpared t ∧ AtRest t)) ∧
  ∀ (s : State) (v : Service) (y : Slot) (c : Block) (g : Seg) (o : OutBufId), s.flash.service = some v →
    v.job = .readSegment y c g o → bufOf s o = .free → s.flash.recordQ = [] → s.flash.serveQ = [] → s.cat.work = [] →
    (∀ (i : Fin 4) (j : Job), guardedSlot j = some s.cat.activeSlot → isJobOf i j = true → s.flash.fetchQ = [j] →
      s.flash.hostQ = [] → gateOpen s = false →
      ∃ t, exec .readSegment s = .next t ∧ t.flash.service = none ∧ t.flash.noJobs = true ∧ t.mem = s.mem ∧
        (ctxOf t i).state = .idle ∧ t.cat.activeSlot = s.cat.activeSlot ∧ t.port = s.port) ∧
    ∀ (x : Slot) (b : Block), s.flash.fetchQ = [] → s.flash.hostQ = [.eraseUnit .wipe x b] →
      ∃ t, exec .readSegment s = .next t ∧ t.mem = s.mem ∧
        t.flash.service = some { job := .eraseUnit .wipe x b, op := .erase 0, orphan := false, resolved := none }

/-- The state right after a device reset meets every invariant above. -/
def Obligations.ResetMeetsInvariants : Prop :=
  MemoryForm State.reset ∧ EventsLegal State.reset ∧ RequestQueuesFit State.reset.flash ∧
    TransmitQueueFits State.reset.line ∧ Bounded State.reset ∧ LinkLegal State.reset ∧ NothingProtected State.reset ∧
    ActiveSpared State.reset ∧ AtRest State.reset

/-! ## Formats -/

/-- A command frame reads back as its command and parameter bytes, whatever bytes follow it (R154, R156). -/
def Obligations.CommandFrameReadsBack : Prop :=
  ∀ (c : HostCommand) (params extra : List Byte), params.length ≤ 140 →
    judgeFrame (commandFrame c params ++ extra) = .ok (c, params)

/-- A line frame reads back, through bit insertion and its removal, as its class, source address and payload, and its payload
as the command that carries its fields; a frame with the receiver's own address is a clash (R70 to R72, R81, R82, R212,
R214). -/
def Obligations.LineFrameReadsBack : Prop :=
  ∀ (src own : Addr) (f : Frame), legalSource src = true →
    (match f with
      | .release _ _ => True
      | .offer _ _ m => m ≠ 0
      | .ask t _ _ m => t ≠ 127 ∧ m ≠ 0
      | .segment _ _ _ d => d.length = 128
      | .notice _ => True) →
    receiveBits (frameBits src f) = .good (frameClass f) src (payloadBytes f) ∧
      (payloadBytes f).length = classLength (frameClass f) ∧
      lineCommand own (frameBits src f) false = some (if src = own then .clash else receptionOf src f)

/-- What the part programs into its control units reads back: a well-formed commit record as VALID with every field, a spare
map entry as the slot and block it names in its own position and no other, and the node part that IDENT programs as CONFIGURED
exactly for a legal family (R7, R8, R10, R11). -/
def Obligations.ControlUnitsReadBack : Prop :=
  (∀ r : CommitRecord, recordWellFormed r = true →
      (recordBytes r).length = 64 ∧ recordReading (recordBytes r) = .valid r) ∧
    (∀ (x : Slot) (b : Block) (p q : Fin 8),
      spareReading q (spareEntryBytes x b p) = if q = p then .valid x b else .void) ∧
    ∀ f : BitVec 16, nodeReading (nodeBytes f) = if legalFamily f then .configured else .spoiled

/-! ## Erases, programs and reads of the array -/

/-- The end of an erase attempt leaves in the unit exactly what the erase left, FFh where the operand says nothing, and every
byte outside the unit as it was (R2, R26, R37). -/
def Obligations.EraseAttemptContent : Prop :=
  ∀ (s : State) (v : Service) (n : Nat) (left : Left), Memory.wf s.mem → s.flash.service = some v → v.op = .erase n →
    v.job ≠ .eraseControl .c0 →
    ∃ t, exec (.eraseAttempt left) s = .next t ∧
      (∀ a, a < unitAddr (eraseTarget s v.job) 0 ∨ unitAddr (eraseTarget s v.job) 2048 ≤ a →
        Memory.read t.mem a = Memory.read s.mem a) ∧
      ∀ i < 2048, Memory.read t.mem (unitAddr (eraseTarget s v.job) i) = (erasedLeft left).getD i erasedByte

/-- An erase attempt that leaves a byte other than FFh fails: the first and second failures start the next attempt on the same
unit, and a third failure on a block's unit starts the spare map entry of the next position, as a segment program that does
not read back as expected does; nothing else changes. The third failure on a control unit raises ARRAY-FAULT, sets FROZEN,
returns the waiting record jobs and leaves the recorded view (R26, R27, R30, R37, R38, R52, R54). -/
def Obligations.FailedAttemptsRetire : Prop :=
  ∀ (s : State) (v : Service) (left : Left), s.flash.service = some v →
    (∀ n, v.op = .erase n →
      blankCheck (eraseLeaving s.mem (eraseTarget s v.job) left) (eraseTarget s v.job) = false →
      (n < 2 → exec (.eraseAttempt left) s = .next { s with
        mem := eraseLeaving s.mem (eraseTarget s v.job) left
        flash := { s.flash with service := some { v with op := .erase (n + 1) } } }) ∧
      (2 ≤ n → ∀ (x : Slot) (b : Block) (p : Fin 8), blockOf v.job = some (x, b) → nextSpare s.flash.spares = some p →
        exec (.eraseAttempt left) s = .next { s with
          mem := eraseLeaving s.mem (eraseTarget s v.job) left
          flash := { s.flash with service := some { v with op := .entry p } } }) ∧
      (2 ≤ n → ∀ u, v.job = .eraseControl u → NoWipe s →
        ∃ t, exec (.eraseAttempt left) s = .next t ∧ RecordJobFailed s t (controlNumber u) 9)) ∧
    ∀ (req : Requester) (x : Slot) (b : Block) (g : Seg) (d : List Byte) (p : Fin 8), v.op = .main →
      v.job = .programSegment req x b g d →
      readBackMatches s.mem (operationLeaves s v left) (currentUnit s.flash.spares x b) (128 * g.val) d = false →
      nextSpare s.flash.spares = some p →
      exec (.programSegment left) s = .next { s with
        mem := operationLeaves s v left
        flash := { s.flash with service := some { v with op := .entry p } } }

/-- With no spare left, the third failed attempt of LOAD DATA's erase ends DEAD: SLOT-DEAD names the slot and block, an
ERASING block becomes DEAD, and LOAD DATA ends WORN (R26, R29, R46, R183). -/
def Obligations.LastSpareGoneEndsDead : Prop :=
  ∀ (s : State) (v : Service) (n : Nat) (left : Left) (x : Slot) (b : Block), s.flash.service = some v →
    v.op = .erase n → 2 ≤ n → v.job = .eraseUnit .host x b → nextSpare s.flash.spares = none →
    blankCheck (eraseLeaving s.mem (eraseTarget s v.job) left) (eraseTarget s v.job) = false → QueuesSpareActive s →
    ∃ t, exec (.eraseAttempt left) s = .next t ∧ Answered t .worn (BitVec.ofNat 8 b.val :: bytes16 0) ∧
      t.port.events = raiseIn .slotDead (deadDetail x b) s.port.events ∧
      (stagingBlock s b = .erasing → stagingBlock t b = .dead) ∧
      (∀ c, c ≠ b → stagingBlock t c = stagingBlock s c) ∧ DistributionKept s t

/-- The end of a spare map entry program: read back as the entry, its position is VALID, UNIT-RETIRED names the retired unit
and the spare, and the spare is erased; otherwise its position is VOID, ARRAY-FAULT names C1 and the job kind, and the next
position, where one is left, is tried. A program that leaves the expected content changes only the eight bytes of the entry
(R3, R8, R27, R28). -/
def Obligations.SpareEntryOutcome : Prop :=
  ∀ (s : State) (v : Service) (p : Fin 8) (left : Left) (x : Slot) (b : Block), s.flash.service = some v →
    v.op = .entry p → blockOf v.job = some (x, b) → entryLeftLegal s v left = true →
    (readBytes (operationLeaves s v left) (unitAddr 513 (8 * p.val)) 8 = spareEntryBytes x b p →
      exec (.spareEntryProgram left) s = .next { s with
        mem := operationLeaves s v left
        flash := { s.flash with
          spares := s.flash.spares.set p (.valid x b), service := some { v with op := .erase 0 } }
        port := { s.port with
          events := raiseIn .unitRetired (retiredDetail (currentUnit s.flash.spares x b) (518 + p.val)) s.port.events } }) ∧
    (readBytes (operationLeaves s v left) (unitAddr 513 (8 * p.val)) 8 ≠ spareEntryBytes x b p →
      ∀ q, nextSpare (s.flash.spares.set p .void) = some q →
      exec (.spareEntryProgram left) s = .next { s with
        mem := operationLeaves s v left
        flash := { s.flash with
          spares := s.flash.spares.set p .void, service := some { v with op := .entry q } }
        port := { s.port with events := raiseIn .arrayFault (faultDetail 513 (jobCode v.job)) s.port.events } }) ∧
    (left = .expected → Memory.wf s.mem → ∀ a, a < unitAddr 513 (8 * p.val) ∨ unitAddr 513 (8 * p.val + 8) ≤ a →
      Memory.read (operationLeaves s v left) a = Memory.read s.mem a)

/-- The end of a segment program leaves in its segment the AND of each byte with the pattern's when the program leaves the
expected content, and changes no byte outside its segment; that a worn unit keeps its other segments too is the model's
(DEDUCED, assumption log 19) (R3, R30). -/
def Obligations.SegmentProgramContent : Prop :=
  ∀ (s : State) (v : Service) (req : Requester) (x : Slot) (b : Block) (g : Seg) (d : List Byte) (left : Left),
    Memory.wf s.mem → s.flash.service = some v → v.op = .main → v.job = .programSegment req x b g d → d.length = 128 →
    ∃ t, exec (.programSegment left) s = .next t ∧
      (∀ a, a < unitAddr (currentUnit s.flash.spares x b) (128 * g.val) ∨
          unitAddr (currentUnit s.flash.spares x b) (128 * g.val + 128) ≤ a →
        Memory.read t.mem a = Memory.read s.mem a) ∧
      (left = .expected → ∀ i < 128, Memory.read t.mem (unitAddr (currentUnit s.flash.spares x b) (128 * g.val + i)) =
        Memory.read s.mem (unitAddr (currentUnit s.flash.spares x b) (128 * g.val + i)) &&& byteAt d i)

/-- LOAD DATA's program reads back as expected: the command ends OK with the block and its programmed mask, which now holds
the segment; a segment of block 0 is captured in the copy (R180, R183, R219). -/
def Obligations.LoadDataSegmentDone : Prop :=
  ∀ (s : State) (v : Service) (x : Slot) (b : Block) (g : Seg) (d : List Byte) (left : Left), s.flash.service = some v →
    v.op = .main → v.job = .programSegment .host x b g d →
    readBackMatches s.mem (operationLeaves s v left) (currentUnit s.flash.spares x b) (128 * g.val) d = true →
    QueuesSpareActive s →
    ∃ t, exec (.programSegment left) s = .next t ∧
      Answered t .ok (BitVec.ofNat 8 b.val :: bytes16 (s.port.load.masks[b] ||| segBit g)) ∧
      t.port.load.masks = s.port.load.masks.set b (s.port.load.masks[b] ||| segBit g) ∧
      t.port.load.copy = (if b = 0 then s.port.load.copy.set g (some d) else s.port.load.copy) ∧
      t.port.events = s.port.events ∧ DistributionKept s t

/-- A fetch context's program reads back as expected: the segment is programmed, its buffer returns to the pool, and the rest
of the context's buffers stay in order (R117, R121). -/
def Obligations.FetchSegmentDone : Prop :=
  ∀ (s : State) (v : Service) (i : Fin 4) (x : Slot) (b : Block) (g : Seg) (d : List Byte) (left : Left),
    s.flash.service = some v → v.op = .main → v.job = .programSegment (.fetch i) x b g d → v.orphan = false →
    readBackMatches s.mem (operationLeaves s v left) (currentUnit s.flash.spares x b) (128 * g.val) d = true →
    QueuesSpareActive s → (ctxOf s i).state = .receiving → (ctxOf s i).buffers ≠ [] →
    ∃ t, exec (.programSegment left) s = .next t ∧ (ctxOf t i).state = .receiving ∧
      (ctxOf t i).programmed = (ctxOf s i).programmed ||| segBit g ∧
      (ctxOf t i).buffers = (ctxOf s i).buffers.drop 1 ∧ t.fetch.poolFree = s.fetch.poolFree + 1 ∧
      t.serve = s.serve ∧ t.notice = s.notice ∧ t.port = s.port

/-- The program of the node part of C0 ends IDENT: OK with the family when the four bytes read back, else WORN with
ARRAY-FAULT for unit 512 (R31, R169). -/
def Obligations.NodeProgramEndsIdent : Prop :=
  ∀ (s : State) (v : Service) (f : BitVec 16) (left : Left), s.flash.service = some v → v.op = .main →
    v.job = .programNode f → QueuesSpareActive s →
    ∃ t, exec (.programSegment left) s = .next t ∧ t.mem = operationLeaves s v left ∧ DistributionKept s t ∧
      CatalogueKept s t ∧
      (if readBackMatches s.mem (operationLeaves s v left) 512 128 (nodeBytes f) then
        Answered t .ok (bytes16 f) ∧ t.port.events = s.port.events
      else Answered t .worn [] ∧ t.port.events = raiseIn .arrayFault (faultDetail 512 2) s.port.events)

/-- A SET MARK that leaves the expected content clears the one bit of its block in its marks row, changes no other bit of the
array and ends DONE; a mark that is set already stays. It ends DONE exactly where the read-back of its row matches: a mismatch
and an overtime end it FAILED, with ARRAY-FAULT and FROZEN (R14, R35, R38, R54). -/
def Obligations.SetMarkClearsOneBit : Prop :=
  ∀ (s : State) (v : Service) (x : Slot) (b : Block), Memory.wf s.mem → s.flash.service = some v → v.op = .main →
    v.job = .setMark x b →
    (∃ t, exec (.setMark .expected) s = .next t ∧ ∀ a, Memory.read t.mem a =
      if a = unitAddr (controlNumber (marksRow x)) (b.val / 8) then
        Memory.read s.mem a &&& ~~~ ((1 : Byte) <<< (b.val % 8))
      else Memory.read s.mem a) ∧
    (NoWipe s → running s = true →
      readBackMatches s.mem (operationLeaves s v .expected) (controlNumber (marksRow x)) 0 (markPattern b) = true ∧
      ∀ left, ∃ t, exec (.setMark left) s = .next t ∧ t.mem = operationLeaves s v left ∧
        (if readBackMatches s.mem t.mem (controlNumber (marksRow x)) 0 (markPattern b) then
          t.cat.frozen = s.cat.frozen ∧ t.port.events = s.port.events
        else RecordJobFailed s t (controlNumber (marksRow x)) 7)) ∧
    (NoWipe s → ∀ left : LastLeft, interruptedLegal s v left.content = true → ∃ t, exec (.overtime left) s = .next t ∧
      RecordJobFailed (raise .arrayFault (faultDetail (controlNumber (marksRow x)) 7) s) t (controlNumber (marksRow x)) 7)

/-- An APPEND RECORD into an ERASED position leaves the record's 64 bytes there and every other byte as it was, and the
recorded view becomes the record. One that does not read back sets FROZEN with ARRAY-FAULT, ends the open procedure and leaves
the recorded view; an append that would exceed the last sequence does the same before it is added, and FLOOR ends WORN (R36,
R38, R49, R51, R52, R54, R179). -/
def Obligations.AppendWritesRecord : Prop :=
  (∀ (s : State) (v : Service) (u : CommitUnit) (q : Nat) (r : CommitRecord) (straps : Straps), Memory.wf s.mem →
    s.flash.service = some v → v.op = .main → v.job = .appendRecord u q (.record r) → NoWipe s →
    (q < 32 → recordAt s.mem u q = List.replicate 64 erasedByte →
      ∃ t, exec (.appendRecord ⟨.expected, straps⟩) s = .next t ∧ recordAt t.mem u q = recordBytes r ∧
        (∀ a, a < unitAddr (controlNumber u.unit) (64 * q) ∨ unitAddr (controlNumber u.unit) (64 * q + 64) ≤ a →
          Memory.read t.mem a = Memory.read s.mem a) ∧
        t.cat.recorded = r) ∧
    ∀ left, recordAt (operationLeaves s v left) u q ≠ recordBytes r →
      ∃ t, exec (.appendRecord ⟨left, straps⟩) s = .next t ∧ t.mem = operationLeaves s v left ∧
        RecordJobFailed s t (controlNumber u.unit) 8 ∧ t.cat.procedure = .none) ∧
  ∀ (s : State) (ver : BitVec 16) (more : Nat), PortRuns s → NothingProtected s → s.cat.frozen = false →
    s.cat.procedure = .none → s.cat.stagingState ≠ .reclaiming → s.cat.stagingState ≠ .loading →
    s.cat.recorded.floor < ver → ver ≤ activeVersion s → 0xFFFFFFFE ≤ s.cat.highSeq →
    ∃ t, exec (.floor ⟨bytes16 ver, more⟩) s = .next t ∧ t.cat.frozen = true ∧ t.cat.procedure = .none ∧
      t.cat.recorded = s.cat.recorded ∧ t.cat.highSeq = s.cat.highSeq ∧
      Answered t .worn (bytes16 s.cat.recorded.floor) ∧
      t.port.events = raiseIn .arrayFault (faultDetail (controlNumber s.cat.commitUnit.unit) 8) s.port.events

/-- The append of a switch returns DONE: the roles swap, the new active slot is PRESENT, the new staging slot is RETIRED
after a forward switch (EMPTY where the active slot held nothing) and DECLINED after a revert, the procedure is over, ACCEPT
ends OK and SWITCHED gives the version (R62 to R64, R178). -/
def Obligations.SwitchSwapsRoles : Prop :=
  ∀ (s : State) (v : Service) (u : CommitUnit) (q : Nat) (r : CommitRecord) (left : LastLeft) (revert : Bool),
    s.flash.service = some v → v.op = .main → v.job = .appendRecord u q (.record r) →
    recordAt (operationLeaves s v left.content) u q = recordBytes r → s.cat.procedure = .switch revert → s.cat.target = none →
    (∀ j ∈ waitingJobs s, blockOf j = none) →
    ∃ t, exec (.appendRecord left) s = .next t ∧ t.cat.activeSlot = stagingSlot s ∧ t.cat.activeState = .present ∧
      t.cat.stagingState = (if revert then .declined else if s.cat.activeState = .none then .empty else .retired) ∧
      t.cat.slotA = s.cat.slotA ∧ t.cat.slotB = s.cat.slotB ∧ t.cat.procedure = .none ∧ t.cat.recorded = r ∧
      Answered t .ok (slotCode (stagingSlot s) :: bytes16 (versionOf (stagingRec s).key)) ∧
      t.port.events = raiseIn .switched (versionDetail (versionOf (stagingRec s).key)) s.port.events

/-- A verify of a fetch context's staging block passes or fails by its content alone: on PASS a VERIFYING block becomes
VERIFIED; on FAIL it is erased again and its context starts over in PREPARING with nothing programmed (R32, R46, R125). -/
def Obligations.VerifyDecidesBlock : Prop :=
  ∀ (s : State) (v : Service) (i : Fin 4) (b : Block) (want : Expected), s.flash.service = some v →
    v.job = .verifyBlock (.fetch i) (stagingSlot s) b want none → v.orphan = false → stagingBlock s b = .verifying →
    QueuesSpareActive s →
    ∃ t, exec .verifyBlock s = .next t ∧
      (if (judgeContent want (unitBytes s.mem (currentUnit s.flash.spares (stagingSlot s) b))).1 then
        stagingBlock t b = .verified
      else stagingBlock t b = .erasing ∧ (ctxOf t i).state = .preparing ∧ (ctxOf t i).programmed = 0 ∧
        (ctxOf t i).job = .erase)

/-- A READ SEGMENT gives the 128 bytes of its segment to its outgoing buffer, and their SEGMENT frame joins the transmit queue
when the line takes it (R33, R145). -/
def Obligations.ReadSegmentQueuesFrame : Prop :=
  ∀ (s : State) (v : Service) (x : Slot) (b : Block) (g : Seg) (i : OutBufId) (k : Key), s.flash.service = some v →
    v.job = .readSegment x b g i → bufOf s i = .reading k b g true → QueuesSpareActive s →
    txAnswer s.line (.segment k b g (segmentBytes s.mem (currentUnit s.flash.spares x b) g.val)) = .accepted →
    ∃ t, exec .readSegment s = .next t ∧
      bufOf t i = .frame k b g (segmentBytes s.mem (currentUnit s.flash.spares x b) g.val) true ∧
      t.line.queue = s.line.queue ++ [{
        frame := .segment k b g (segmentBytes s.mem (currentUnit s.flash.spares x b) g.val), owner := .serveBuffer i,
        attempts := 0, onLine := false, live := true }] ∧
      CatalogueKept s t ∧ t.port = s.port ∧ t.fetch = s.fetch ∧ t.notice = s.notice

/-- READ RANGE ends READ: OK with the version and the bytes read, or NOT-READY with cause 01h when the block could not be read
at the take; CHECK BLOCK of the last block ends CHECKSUM with a line for every block (R34, R175 to R177, R219). That the value
reported for block 0 is the CRC-32 of the whole block too is the model's (DEDUCED, assumption log 28). -/
def Obligations.ReadsAnswerHost : Prop :=
  (∀ (s : State) (v : Service) (role : Role) (b : Block) (offset length : Nat) (r : Resolved),
    s.flash.service = some v → v.job = .readRange role b offset length → v.resolved = some r → QueuesSpareActive s →
    ∃ t, exec .readRange s = .next t ∧ t.port.events = s.port.events ∧ DistributionKept s t ∧
      CatalogueKept s t ∧
      (if r.readable then Answered t .ok (bytes16 r.version ++
          readBytes s.mem (unitAddr (currentUnit s.flash.spares r.slot b) offset) length)
        else Answered t .notReady (bytes16 r.version ++ [1]))) ∧
  ∀ (s : State) (v : Service) (role : Role) (b : Block) (r : Resolved) (first count : Nat) (done : List CheckLine),
    s.flash.service = some v → v.job = .checkBlock role b → v.resolved = some r → QueuesSpareActive s →
    s.port.command = some (.checksum role first count done) → done.length + 1 = count →
    ∃ (t : State) (line : CheckLine), exec .checkBlock s = .next t ∧ t.port.events = s.port.events ∧
      DistributionKept s t ∧ CatalogueKept s t ∧
      Answered t .ok ([BitVec.ofNat 8 first, BitVec.ofNat 8 count] ++ (done ++ [line]).flatMap checkLineBytes) ∧
      line.version = r.version ∧
      (if r.readable then line.crc = crc32 (unitBytes s.mem (currentUnit s.flash.spares r.slot b)) ∧
          line.outcome = (if (judgeContent r.want (unitBytes s.mem (currentUnit s.flash.spares r.slot b))).1 then .isMatch
            else .mismatch)
        else line.outcome = .notVerified ∧ line.crc = 0)

/-- An operation stopped at its overtime limit raises ARRAY-FAULT with its unit and the job kind, and counts as a failure: an
erase attempt is tried again, a spare map entry or a segment program goes on to the next position, and a READ RANGE ends
NOT-READY with cause 02h; a stopped program leaves what R40 gives (R19, R26 to R28, R30, R34, R40, R175). That an overtime of an entry raises one ARRAY-FAULT and not two
is the model's choice (assumption log 16). -/
def Obligations.OvertimeFails : Prop :=
  ∀ (s : State) (v : Service) (left : LastLeft), s.flash.service = some v →
    (∀ n < 2, v.op = .erase n → exec (.overtime left) s = .next { strapPins left.straps s with
      mem := operationLeaves s v left.content
      flash := { s.flash with service := some { v with op := .erase (n + 1) } }
      port := { s.port with
        events := raiseIn .arrayFault (faultDetail (eraseTarget s v.job) (jobCode v.job)) s.port.events } }) ∧
    (∀ p q, v.op = .entry p → interruptedLegal s v left.content = true → nextSpare (s.flash.spares.set p .void) = some q →
      exec (.overtime left) s = .next { strapPins left.straps s with
        mem := operationLeaves s v left.content
        flash := { s.flash with spares := s.flash.spares.set p .void, service := some { v with op := .entry q } }
        port := { s.port with events := raiseIn .arrayFault (faultDetail 513 (jobCode v.job)) s.port.events } }) ∧
    (∀ req x b g d p, v.op = .main → v.job = .programSegment req x b g d → nextSpare s.flash.spares = some p →
      interruptedLegal s v left.content = true → exec (.overtime left) s = .next { strapPins left.straps s with
        mem := operationLeaves s v left.content
        flash := { s.flash with service := some { v with op := .entry p } }
        port := { s.port with
          events := raiseIn .arrayFault (faultDetail (currentUnit s.flash.spares x b) 2) s.port.events } }) ∧
    (∀ role b offset length r, v.op = .main → v.job = .readRange role b offset length → v.resolved = some r →
      r.readable = true → QueuesSpareActive s →
      ∃ t, exec (.overtime left) s = .next t ∧ t.mem = s.mem ∧ Answered t .notReady (bytes16 r.version ++ [2]) ∧
        DistributionKept s t ∧ CatalogueKept s t ∧
        t.port.events = raiseIn .arrayFault (faultDetail (currentUnit s.flash.spares r.slot b) 5) s.port.events)

/-! ## The distribution line -/

/-- At an idle the controller puts on the line the earliest entry of the lowest class that the link allows, and sends nothing
when it allows none; nothing else changes (R69, R73, R78). -/
def Obligations.LineIdleChooses : Prop :=
  ∀ s : State, s.line.link ≠ .offline → onLineEntry s = none →
    ((∀ e ∈ s.line.queue, linkAllows s.line.link e = false) →
      exec .lineIdle s = .next { s with line := { s.line with idleCount := 10 } }) ∧
    ∀ (before after : List TxEntry) (e : TxEntry), s.line.queue = before ++ e :: after →
      linkAllows s.line.link e = true →
      (∀ x ∈ s.line.queue, linkAllows s.line.link x = true → frameClass e.frame ≤ frameClass x.frame) →
      (∀ x ∈ before, frameClass x.frame ≠ frameClass e.frame) →
      exec .lineIdle s = .next { s with line := { s.line with
        idleCount := 0, queue := before ++ { e with onLine := true } :: after } }

/-- A lost contention takes an entry that the link still lets be sent off the line, which keeps its place and attempt count,
and changes no counter; a SEGMENT whose serve entry has been cancelled leaves the queue then and its buffer is freed (DEDUCED,
assumption log 11). An attempt that ends without echo, by an abort or at the echo slot, is counted, and an entry with attempts
left stays in its place with its count plus 1, of which no producer hears; an ASK that stays so may be followed by other ASKs
that were held (R73, R74, R76, R83, R112, R147, R148). -/
def Obligations.FailedSendKeepsEntry : Prop :=
  ∀ (s : State) (before after : List TxEntry) (e : TxEntry), s.line.queue = before ++ e :: after → e.onLine = true →
    (∀ x ∈ before ++ after, x.onLine = false) →
    (e.live = true → linkSends s.line.link = true →
      exec .contentionLost s = .next { s with line := { s.line with
        idleCount := 0, queue := before ++ { e with onLine := false } :: after } }) ∧
    (∀ i, e.live = false → e.owner = .serveBuffer i → 16 ≤ (sendingEntry s).elim 16 ServeEntry.nextIndex →
      ∃ t, exec .contentionLost s = .next t ∧ bufOf t i = .free ∧ t.serve.served = s.serve.served ∧
        (∃ new, t.line.queue = before ++ after ++ new ∧ ∀ x ∈ new, x.owner = .serveOffer ∧ x.onLine = false) ∧
        t.line.unechoed = s.line.unechoed ∧ t.line.echoMiss = s.line.echoMiss) ∧
    (e.live = true → e.attempts < 2 → linkSends s.line.link = true → s.line.echoMiss < 15 → NothingProtected s →
      ∀ c, (c = .bitError ∨ c = .attemptEnd false) →
        ((match e.owner with | .fetch _ => False | .noticeUnit => s.notice.owed = false | _ => True) →
          exec c s = .next { s with line := { s.line with
            idleCount := 0, queue := before ++ { e with onLine := false, attempts := e.attempts + 1 } :: after,
            unechoed := count16 s.line.unechoed, echoMiss := s.line.echoMiss + 1 } }) ∧
        ∀ i, e.owner = .fetch i → (ctxOf s i).state = .asking → (ctxOf s i).askQueued = true →
          ∃ t, exec c s = .next t ∧
            (∃ new, t.line.queue = before ++ { e with onLine := false, attempts := e.attempts + 1 } :: after ++ new ∧
              ∀ x ∈ new, x.onLine = false ∧ x.attempts = 0) ∧
            t.line.unechoed = count16 s.line.unechoed ∧ t.line.echoMiss = s.line.echoMiss + 1 ∧
            ctxOf t i = ctxOf s i)

/-- The report of an entry at the end of the attempt that decides it, echoed (SENT) or the third without echo (UNSENT). A
RELEASE answers a PUBLISH in progress 00h or 01h. An ASK takes its context from ASKING to CLAIMING with a claim window of 120
ms and resets the last-asked age of the peer asked; unsent it clears the server and counts a try. An OFFER takes its serve
entry to SENDING, which reads the lowest segment of its mask into OB0; unsent it removes the entry. A SEGMENT is counted as
served when sent, frees its buffer either way, and ends a serve that has no segment left (R76, R83, R100, R110, R113, R141,
R143, R146, R188, R218). -/
def Obligations.ReleaseReportAnswersPublish : Prop :=
  ∀ (s : State) (before after : List TxEntry) (e : TxEntry), s.line.queue = before ++ e :: after → e.onLine = true →
    (∀ x ∈ before ++ after, x.onLine = false) → linkSends s.line.link = true → NothingProtected s →
    (e.owner = .catalogue → s.port.command = some .publish →
      exec (.attemptEnd true) s = .next (answer .ok [0] { s with line := { s.line with
        idleCount := 0, queue := before ++ after, framesSent := count16 s.line.framesSent, echoMiss := 0 } }) ∧
      (e.attempts = 2 → s.line.echoMiss < 15 →
        exec (.attemptEnd false) s = .next (answer .ok [1] { s with line := { s.line with
          idleCount := 0, queue := before ++ after, unechoed := count16 s.line.unechoed,
          echoMiss := s.line.echoMiss + 1 } }))) ∧
    (∀ (i : Fin 4) (target : Addr) (k : Key) (b : Block) (m : Mask), e.owner = .fetch i →
      e.frame = .ask target k b m → e.live = true → (ctxOf s i).state = .asking →
      (∃ t, exec (.attemptEnd true) s = .next t ∧
        ctxOf t i = { ctxOf s i with state := .claiming, askQueued := false, claimLeft := 120 } ∧
        t.notice.peers = (if target = 0 then s.notice.peers else
          s.notice.peers.map (fun p => if p.addr = target then { p with asked := 0 } else p)) ∧
        t.line.framesSent = count16 s.line.framesSent ∧ t.line.echoMiss = 0) ∧
      (e.attempts = 2 → s.line.echoMiss < 15 → (ctxOf s i).tries < 5 →
        ∃ t, exec (.attemptEnd false) s = .next t ∧ (ctxOf t i).state = .asking ∧
          (ctxOf t i).tries = (ctxOf s i).tries + 1 ∧ (ctxOf t i).server = none ∧ t.notice.peers = s.notice.peers)) ∧
    (∀ (k : Key) (b : Block) (m : Mask) (f : ServeEntry), e.owner = .serveOffer → e.frame = .offer k b m →
      e.live = true → findEntry s k b = some f → (∀ x ∈ s.serve.queue, x.state ≠ .sending) →
      (∀ (y : Slot) (g : Seg), holderOf s k = some y → (slotRec s y).blocks[b] = .verified → hasSeg f.mask g = true →
        (∀ h < g, hasSeg f.mask h = false) → s.serve.ob0 = .free →
        ∃ (t : State) (n : ServeEntry), exec (.attemptEnd true) s = .next t ∧ findEntry t k b = some n ∧
          n.state = .sending ∧ n.offerQueued = false ∧ n.mask = f.mask ∧ t.serve.ob0 = .reading k b g true ∧
          t.line.framesSent = count16 s.line.framesSent) ∧
      (e.attempts = 2 → s.line.echoMiss < 15 →
        ∃ t, exec (.attemptEnd false) s = .next t ∧ findEntry t k b = none ∧
          t.serve.queue.length < s.serve.queue.length ∧ t.serve.served = s.serve.served)) ∧
    ∀ (i : OutBufId) (f : ServeEntry), e.owner = .serveBuffer i → sendingEntry s = some f → 16 ≤ f.nextIndex →
      (∀ j, j ≠ i → (bufOf s j).heldFor f.key f.block = false) →
      (∃ t, exec (.attemptEnd true) s = .next t ∧ t.serve.served = count16 s.serve.served ∧ bufOf t i = .free ∧
        findEntry t f.key f.block = none) ∧
      (e.attempts = 2 → e.live = true → s.line.echoMiss < 15 →
        ∃ t, exec (.attemptEnd false) s = .next t ∧ t.serve.served = s.serve.served ∧ bufOf t i = .free ∧
          findEntry t f.key f.block = none)

/-- The first echoed NOTICE of a JOINING station brings the link to ACTIVE: the join timer stops, LINK-CHANGE is raised, and the
miss count is 0. The entry has left the queue, which holds the other entries in their order and after them only what is
submitted in the event (R76, R84, R86). -/
def Obligations.EchoedNoticeJoins : Prop :=
  ∀ (s : State) (before after : List TxEntry) (e : TxEntry), s.line.queue = before ++ e :: after → e.onLine = true →
    (∀ x ∈ before ++ after, x.onLine = false ∧ frameClass x.frame ≠ 4) → e.owner = .noticeUnit →
    s.line.link = .joining → NothingProtected s →
    ∃ t, exec (.attemptEnd true) s = .next t ∧ t.line.link = .active ∧ t.line.joinLeft = none ∧
      t.line.echoMiss = 0 ∧ t.line.framesSent = count16 s.line.framesSent ∧
      (∃ new, t.line.queue = before ++ after ++ new ∧ ∀ x ∈ new, x.onLine = false ∧ x.attempts = 0) ∧
      t.port.events = raiseIn .linkChange (byteDetail 2) s.port.events

/-- The sixteenth miss in a row brings the link to LISTEN-ONLY for 5,000 ms: the miss count is 0 again, the transmit queue and
the serve queue are empty, the join timer is stopped and the notice unit owes nothing (R83, R87, R89, R94, R149). -/
def Obligations.SixteenthMissListens : Prop :=
  ∀ (s : State) (before after : List TxEntry) (e : TxEntry), s.line.queue = before ++ e :: after → e.onLine = true →
    (∀ x ∈ before ++ after, x.onLine = false) → linkSends s.line.link = true → s.line.echoMiss = 15 →
    NothingProtected s →
    ∃ t, exec .bitError s = .next t ∧ t.line.link = .listenOnly ∧ t.line.listen = .running 5000 ∧ t.line.echoMiss = 0 ∧
      t.line.joinLeft = none ∧ t.line.queue = [] ∧ t.serve.queue = [] ∧ t.notice.periodicLeft = none ∧
      t.notice.changed = false ∧ t.notice.owed = false ∧ t.line.unechoed = count16 s.line.unechoed

/-- A good frame with this station's own address that it did not send takes the link from JOINING, ACTIVE or LISTEN-ONLY to
CLASH, with the timers discarded, the queues emptied, the peer table untouched and no echo driven; in CLASH it counts nothing
(R75, R81, R88, R89). -/
def Obligations.OwnAddressClashes : Prop :=
  ∀ (s : State), s.line.link ≠ .offline →
    (s.line.link ≠ .clash → ∃ t, exec .clash s = .next t ∧ t.line.link = .clash ∧ t.line.joinLeft = none ∧
      t.line.listen = .stopped ∧ (∀ x ∈ t.line.queue, x.onLine = true) ∧ t.serve.queue = [] ∧
      t.notice.peers = s.notice.peers ∧ t.notice.periodicLeft = none ∧
      t.line.receiveErrors = s.line.receiveErrors ∧ t.line.echoMiss = s.line.echoMiss ∧ t.line.echoDriven = false ∧
      t.port.events = raiseIn .linkChange (byteDetail 4) s.port.events) ∧
    (s.line.link = .clash →
      exec .clash s = .next { s with line := { s.line with idleCount := 0, echoDriven := false } })

/-- A frame with an insertion violation, a length or format error, a CRC-16 mismatch, or a good one whose delimiter reads
dominant counts one receive error and does nothing more, but for the echo slot, which only a good frame of another station has
had driven, in JOINING and ACTIVE, and the idle count: a frame abandoned at an insertion violation or at its length byte leaves
the recessive bits read last, up to 10, and any other ends at its delimiter, with 0. OFFLINE, nothing of the line reaches the part: no idle, no frame and no clash changes its
state (R69, R70, R72, R75, R80, R81, R84, R85). -/
def Obligations.UnheardFramesChangeNothing : Prop :=
  (∀ (s : State) (bits : List Bool) (dominant : Bool), s.line.link ≠ .offline →
    (receiveBits bits = .insertionViolation ∨ receiveBits bits = .badLength ∨ receiveBits bits = .crcMismatch ∨
      receiveBits bits = .formatError ∨
      (∃ cls src payload, receiveBits bits = .good cls src payload) ∧ dominant = true) →
    exec (.frameDiscarded bits dominant) s = .next { s with line := { s.line with
      idleCount := idleAtEnd s.line.idleCount bits, receiveErrors := count16 s.line.receiveErrors,
      echoDriven := (match receiveBits bits with
        | .good _ src _ => src ≠ s.startUp.straps.address && (s.line.link = .joining || s.line.link = .active)
        | _ => false) } }) ∧
  ∀ s : State, s.line.link = .offline → NothingProtected s →
    ∀ c, (c = .lineIdle ∨ c = .clash ∨ (∃ bits d, c = .frameDiscarded bits d) ∨
        (∃ src key count, c = .releaseReceived src key count) ∨ (∃ src key b m, c = .offerReceived src key b m) ∨
        (∃ src target key b m, c = .askReceived src target key b m) ∨
        (∃ src key b g d, c = .segmentReceived src key b g d) ∨ ∃ src n, c = .noticeReceived src n) →
      exec c s = .next s

/-- A good frame of another family is echoed in JOINING and ACTIVE, touched into the peer table and does nothing more,
whatever its class (R75, R82, R84). -/
def Obligations.ForeignFrameOnlyTouched : Prop :=
  ∀ (s : State) (src : Addr), Heard s src → NothingProtected s →
    ((afterTouch src s).line.echoDriven = true ↔ s.line.link = .joining ∨ s.line.link = .active) ∧
    (∀ key, ofFamily s key = false →
      (∀ count, exec (.releaseReceived src key count) s = .next (afterTouch src s)) ∧
      (∀ b m, m ≠ 0 → exec (.offerReceived src key b m) s = .next (afterTouch src s)) ∧
      (∀ target b m, m ≠ 0 → target.toNat ≤ 126 → exec (.askReceived src target key b m) s = .next (afterTouch src s)) ∧
      ∀ b g d, g.toNat ≤ 15 → d.length = 128 → exec (.segmentReceived src key b g d) s = .next (afterTouch src s)) ∧
    ∀ n, noticeOfFamily s n = false → exec (.noticeReceived src n) s = .next (afterTouch src s)

/-- The peer-table touch sets the age of a known address to 0 and leaves every other entry; an unknown address comes in at the
tail with age 0, no notice part, tally 0 and last-asked age 65,535; a full table of 24 loses one entry, of the greatest age,
to make room (R96). Entries are compared in the fields of R95. -/
def Obligations.TouchKeepsPeers : Prop :=
  ∀ (a : Addr) (ps : List Peer),
    ((∃ p ∈ ps, p.addr = a) →
      (touched a ps).map Peer.fields = ps.map (fun p => (if p.addr = a then { p with heard := 0 } else p).fields)) ∧
    ((∀ p ∈ ps, p.addr ≠ a) → ps.length < 24 →
      (touched a ps).map Peer.fields = ps.map Peer.fields ++ [(a, 0, none, 0, 65535)]) ∧
    ((∀ p ∈ ps, p.addr ≠ a) → 24 ≤ ps.length → ∃ (before after : List Peer) (old : Peer), ps = before ++ old :: after ∧
      (∀ p ∈ ps, p.heard ≤ old.heard) ∧
      (touched a ps).map Peer.fields = (before ++ after).map Peer.fields ++ [(a, 0, none, 0, 65535)])

/-- An eligible ASK without an entry of its key and block makes a new entry at the tail, WAITING with the station's delay, or
OFFERING at once where the delay is 0; with 8 entries queued it is refused and counted; an ASK that is not eligible is only
touched (R133, R135, R136, R139). -/
def Obligations.AskMakesEntry : Prop :=
  ∀ (s : State) (src : Addr) (target : Byte) (key : Key) (b : Block) (m : Mask), Heard s src → ofFamily s key = true →
    m ≠ 0 → target.toNat ≤ 126 →
    (askEligible s (target.extractLsb' 0 7) key b = false →
      exec (.askReceived src target key b m) s = .next (afterTouch src s)) ∧
    (askEligible s (target.extractLsb' 0 7) key b = true → findEntry s key b = none →
      (s.serve.queue.length < 8 → serveDelay s ≠ 0 →
        exec (.askReceived src target key b m) s = .next { afterTouch src s with serve := { s.serve with
          queue := s.serve.queue ++ [ServeEntry.mk key b m .waiting (serveDelay s) false 0 16] } }) ∧
      (s.serve.queue.length < 8 → serveDelay s = 0 →
        ∃ (t : State) (e : ServeEntry), exec (.askReceived src target key b m) s = .next t ∧ e ∈ t.serve.queue ∧
          e.key = key ∧ e.block = b ∧ e.mask = m ∧ e.state = .offering ∧ t.notice.peers = touched src s.notice.peers) ∧
      (8 ≤ s.serve.queue.length →
        exec (.askReceived src target key b m) s = .next { afterTouch src s with
          serve := { s.serve with refused := count16 s.serve.refused } }))

/-- An OFFER that holds a segment a context still needs takes the context into RECEIVING from its sender: the silence timer
starts at 50 ms, the end index is the OFFER's highest segment (in RECEIVING, the higher of that and its own), and the
context keeps its block, buffers and programmed segments (R115). -/
def Obligations.OfferTakesContext : Prop :=
  ∀ (s : State) (src : Addr) (key : Key) (b : Block) (m : Mask) (i : Fin 4), Heard s src → ofFamily s key = true →
    m ≠ 0 → (ctxOf s i).counts key b m = true →
    ∃ t, exec (.offerReceived src key b m) s = .next t ∧ (ctxOf t i).state = .receiving ∧
      (ctxOf t i).server = some src ∧ (ctxOf t i).silenceLeft = 50 ∧
      (ctxOf t i).endIndex = some (if (ctxOf s i).state = .receiving then
        max ((ctxOf s i).endIndex.getD 0) (highestSeg m) else highestSeg m) ∧
      (ctxOf t i).block = (ctxOf s i).block ∧ (ctxOf t i).buffers = (ctxOf s i).buffers ∧
      (ctxOf t i).programmed = (ctxOf s i).programmed ∧ t.notice.peers = touched src s.notice.peers

/-- A wanted segment takes a pool buffer and goes to the tail of its context's list; with no pool buffer free it is dropped
and the overrun counter rises; either way the context is RECEIVING with its silence timer at 50 ms (R117 to R119). -/
def Obligations.SegmentTakesBuffer : Prop :=
  ∀ (s : State) (src : Addr) (key : Key) (b : Block) (g : Byte) (d : List Byte) (i : Fin 4), Heard s src →
    ofFamily s key = true → g.toNat ≤ 15 → d.length = 128 → receiverOf s b = some i → (stagingRec s).key = some key →
    hasSeg (ctxOf s i).wanted (Fin.ofNat 16 g.toNat) = true → hasSeg (ctxOf s i).programmed (Fin.ofNat 16 g.toNat) = false →
    (∀ x ∈ (ctxOf s i).buffers, x.1 ≠ Fin.ofNat 16 g.toNat) → (ctxOf s i).state = .receiving →
    (ctxOf s i).endIndex ≠ some (Fin.ofNat 16 g.toNat) →
    (0 < s.fetch.poolFree → ∃ t, exec (.segmentReceived src key b g d) s = .next t ∧
      (ctxOf t i).buffers = (ctxOf s i).buffers ++ [(Fin.ofNat 16 g.toNat, d)] ∧
      t.fetch.poolFree = s.fetch.poolFree - 1 ∧ t.fetch.overrun = s.fetch.overrun ∧ (ctxOf t i).state = .receiving ∧
      (ctxOf t i).silenceLeft = 50 ∧ t.serve = s.serve ∧ t.port = s.port) ∧
    (s.fetch.poolFree = 0 → ∃ t, exec (.segmentReceived src key b g d) s = .next t ∧
      ctxOf t i = { ctxOf s i with claimLeft := 0, silenceLeft := 50 } ∧
      t.fetch.overrun = count16 s.fetch.overrun ∧ t.flash = s.flash ∧ t.cat = s.cat ∧ t.serve = s.serve ∧ t.port = s.port)

/-- A well-formed NOTICE refreshes its source's entry, whatever its candidate keys lead to: the notice part is the NOTICE's and
the tally is 0. With candidate keys that the station holds already, and for a NOTICE that is not well formed, nothing else
changes but the touch (R82, R98, R102). -/
def Obligations.NoticeRefreshesPeer : Prop :=
  ∀ (s : State) (src : Addr) (n : NoticeFrame), Heard s src → noticeOfFamily s n = true → NothingProtected s →
    (noticeWellFormed n = false → exec (.noticeReceived src n) s = .next (afterTouch src s)) ∧
    (noticeWellFormed n = true →
      ∃ t, exec (.noticeReceived src n) s = .next t ∧ t.notice.peers = (touched src s.notice.peers).map (fun p =>
        if p.addr = src then { p with part := some (partOf n), tally := 0 } else p)) ∧
    (noticeWellFormed n = true → (∀ k ∈ noticeCandidates n, k ∈ heldKeys s) →
      exec (.noticeReceived src n) s = .next { afterTouch src s with notice := { s.notice with
        peers := (touched src s.notice.peers).map (fun p =>
          if p.addr = src then { p with part := some (partOf n), tally := 0 } else p) } })

/-- A newer candidate key from a RELEASE, with the staging slot settled and no procedure open, starts a reclaim: the staging
slot takes the key in RECLAIMING, every context is IDLE, the deferral list is empty, no block of it stays VERIFIED and no
serve entry has its old key; the active slot stays as it is. A second key of a version that is held is a DIGEST-CONFLICT
from its source and nothing else (R56, R57, R59, R103, R130). -/
def Obligations.ReleaseStartsReclaim : Prop :=
  ∀ (s : State) (src : Addr) (key : Key) (count : Byte), Heard s src → ofFamily s key = true → running s = true →
    s.cat.frozen = false → key.version ≠ 0 → count ≠ 0 → NothingProtected s → key ∉ heldKeys s →
    ((∀ h ∈ heldKeys s, h.version ≠ key.version) → candidateNewer s key = true → s.cat.procedure = .none →
      (s.cat.stagingState = .empty ∨ s.cat.stagingState = .fetching ∨ s.cat.stagingState = .complete ∨
        s.cat.stagingState = .retired ∨ s.cat.stagingState = .declined) →
      s.cat.highSeq < 0xFFFFFFFE → (∀ j ∈ s.cat.work, blockOf j = none) →
      ∃ t, exec (.releaseReceived src key count) s = .next t ∧ t.cat.stagingState = .reclaiming ∧
        t.cat.procedure = .reclaim ∧ (stagingRec t).key = some key ∧
        (∀ b, stagingBlock t b = .unknown ∨ stagingBlock t b = .blank) ∧
        (∀ i, (ctxOf t i).state = .idle) ∧ t.fetch.deferral = [] ∧
        (∀ e ∈ t.serve.queue, (stagingRec s).key ≠ some e.key) ∧ t.cat.activeSlot = s.cat.activeSlot ∧
        activeRec t = activeRec s ∧ t.cat.recorded = s.cat.recorded ∧ t.cat.highSeq = s.cat.highSeq + 1) ∧
    ((∃ h ∈ heldKeys s, h.version = key.version) →
      exec (.releaseReceived src key count) s =
        .next (raise .digestConflict (byteDetail (src.zeroExtend 8)) (afterTouch src s)))

/-! ## Timers -/

/-- The join timer in JOINING, the periodic timer in ACTIVE, and the spacing timer in ACTIVE with a changed content each submit
this station's NOTICE as it stands, in the place of a queued one; one on the line makes the submission owed; a content that is
back at the last one sent clears the change flag alone (R79, R86, R90, R92, R93). That an ACCEPTED NOTICE leaves no earlier
submission owed is the model's choice where R93 leaves it open (assumption log 38). -/
def Obligations.TimersSubmitNotice : Prop :=
  ∀ (s : State) (n : Nat),
    (s.line.link = .joining → s.line.joinLeft = some n →
      ((∀ e ∈ s.line.queue, frameClass e.frame = 4 → e.onLine = false) →
        ∃ t, exec .joinTimer s = .next t ∧ NoticeSent s t ∧ t.line.joinLeft = some 1000 ∧ t.line.link = .joining) ∧
      ((∃ e ∈ s.line.queue, frameClass e.frame = 4 ∧ e.onLine = true) →
        ∃ t, exec .joinTimer s = .next t ∧ t.line.queue = s.line.queue ∧ t.notice.owed = true ∧
          t.line.joinLeft = some 1000 ∧ t.notice.last = s.notice.last)) ∧
    (s.line.link = .active → s.notice.periodicLeft = some n →
      ((∀ e ∈ s.line.queue, frameClass e.frame = 4 → e.onLine = false) →
        ∃ t, exec .periodicTimer s = .next t ∧ NoticeSent s t ∧ t.notice.periodicLeft = some 2000 ∧
          t.line.link = .active) ∧
      ((∃ e ∈ s.line.queue, frameClass e.frame = 4 ∧ e.onLine = true) →
        ∃ t, exec .periodicTimer s = .next t ∧ t.line.queue = s.line.queue ∧ t.notice.owed = true ∧
          t.notice.last = s.notice.last)) ∧
    (s.line.link = .active → s.notice.spacing = some n → s.notice.changed = true →
      (s.notice.last ≠ some (noticeContent s) → (∀ e ∈ s.line.queue, frameClass e.frame = 4 → e.onLine = false) →
        ∃ t, exec .spacingTimer s = .next t ∧ NoticeSent s t ∧ t.notice.periodicLeft = some 2000) ∧
      (s.notice.last ≠ some (noticeContent s) → (∃ e ∈ s.line.queue, frameClass e.frame = 4 ∧ e.onLine = true) →
        ∃ t, exec .spacingTimer s = .next t ∧ t.line.queue = s.line.queue ∧ t.notice.owed = true ∧
          t.notice.last = s.notice.last) ∧
      (s.notice.last = some (noticeContent s) →
        ∃ t, exec .spacingTimer s = .next t ∧ t.line.queue = s.line.queue ∧ t.notice.changed = false ∧
          t.notice.last = s.notice.last))

/-- The LISTEN-ONLY timer brings the link back to JOINING, with a NOTICE due in 300 ms; a timer that WIPE holds does not expire
(R84, R86, R87; the refusal is the model's choice, assumption log 3). -/
def Obligations.ListenOnlyEnds : Prop :=
  ∀ s : State,
    (∀ n, s.line.listen = .running n → ∃ t, exec .listenOnlyTimer s = .next t ∧ t.line.link = .joining ∧
      t.line.joinLeft = some 300 ∧ t.line.listen = .stopped ∧ t.line.echoMiss = s.line.echoMiss ∧
      t.port.events = raiseIn .linkChange (byteDetail 1) s.port.events) ∧
    (s.line.listen = .held → exec .listenOnlyTimer s = .refused .timerNotRunning)

/-- A peer whose last-heard age reaches 6,000 ms leaves the table and the others keep their order; a context with an ASK
outstanding to it goes on (R97). That the other ages move by the time the age had left is the model's passage of time (DESIGN
CHOICE, assumption log 4). -/
def Obligations.SilentPeerForgotten : Prop :=
  ∀ (s : State) (a : Addr) (p : Peer), findPeer s a = some p →
    ∃ t, exec (.peerAgedOut a) s = .next t ∧
      t.notice.peers.map Peer.addr = (s.notice.peers.map Peer.addr).filter (fun x => x ≠ a) ∧
      (∀ q ∈ t.notice.peers, ∃ r ∈ s.notice.peers, r.addr = q.addr ∧ r.part = q.part ∧ r.tally = q.tally ∧
        q.heard = min 6000 (r.heard + (6000 - p.heard))) ∧
      ∀ i, (ctxOf t i).state = (ctxOf s i).state ∧ (ctxOf t i).asked = (ctxOf s i).asked

/-- The expiry of a claim window adds an unanswered ask to the peer asked and starts the next try, and the fifth try's expiry
defers the block; the expiry of the silence timer settles the context, which goes on to verify or to the next try once nothing
is outstanding; the oldest deferral leaves at its timer (R99, R110, R114, R123 to R127). -/
def Obligations.FetchTimers : Prop :=
  ∀ (s : State) (i : Fin 4),
    ((ctxOf s i).state = .claiming →
      ((ctxOf s i).tries < 5 → ∃ t, exec (.claimWindow i) s = .next t ∧ (ctxOf t i).state = .asking ∧
        (ctxOf t i).tries = (ctxOf s i).tries + 1 ∧ (ctxOf t i).wanted = ~~~ (ctxOf s i).programmed ∧
        (ctxOf t i).server = none ∧ (ctxOf t i).block = (ctxOf s i).block ∧
        t.notice.peers.map (fun p => (p.addr, p.tally)) = s.notice.peers.map (fun p => (p.addr,
          if (ctxOf s i).asked ≠ 0 ∧ p.addr = (ctxOf s i).asked then min 3 (p.tally + 1) else p.tally))) ∧
      (5 ≤ (ctxOf s i).tries → ∃ t, exec (.claimWindow i) s = .next t ∧
        (t.fetch.deferral.map Deferral.block).getLast? = some (ctxOf s i).block ∧
        t.port.events = raiseIn .blockDeferred (byteDetail (BitVec.ofNat 8 (ctxOf s i).block.val)) s.port.events)) ∧
    ((ctxOf s i).state = .receiving →
      ((ctxOf s i).buffers ≠ [] ∨ (ctxOf s i).job ≠ .none →
        ∃ t, exec (.silenceTimer i) s = .next t ∧ (ctxOf t i).state = .settling ∧ (ctxOf t i).endIndex = none ∧
          (ctxOf t i).buffers = (ctxOf s i).buffers ∧ (ctxOf t i).job = (ctxOf s i).job) ∧
      ((ctxOf s i).buffers = [] → (ctxOf s i).job = .none → (ctxOf s i).programmed = 0xFFFF →
        ∃ t, exec (.silenceTimer i) s = .next t ∧ (ctxOf t i).state = .verifying ∧ (ctxOf t i).job = .verify) ∧
      ((ctxOf s i).buffers = [] → (ctxOf s i).job = .none → (ctxOf s i).programmed ≠ 0xFFFF → (ctxOf s i).tries < 5 →
        ∃ t, exec (.silenceTimer i) s = .next t ∧ (ctxOf t i).state = .asking ∧
          (ctxOf t i).tries = (ctxOf s i).tries + 1 ∧ (ctxOf t i).wanted = ~~~ (ctxOf s i).programmed)) ∧
    (∀ d ds, s.fetch.deferral = d :: ds → ∃ t, exec .deferralTimer s = .next t ∧
      t.fetch.deferral.map Deferral.block = ds.map Deferral.block ∧ t.port = s.port)

/-- The oldest WAITING entry enters OFFERING at its delay timer; where it is the oldest of all, nothing is SENDING and no OFFER
is queued, its OFFER with its whole mask joins the transmit queue (R139, R140). -/
def Obligations.DelayedEntryOffers : Prop :=
  ∀ (s : State) (before after : List ServeEntry) (e : ServeEntry), s.serve.queue = before ++ e :: after →
    e.state = .waiting → (∀ x ∈ before, x.state ≠ .waiting) →
    (∀ x ∈ before ++ after, x.isFor e.key e.block = false) →
    (∃ (t : State) (f : ServeEntry), exec .serveDelay s = .next t ∧ f ∈ t.serve.queue ∧ f.key = e.key ∧
      f.block = e.block ∧ f.mask = e.mask ∧ f.state = .offering ∧ t.serve.queue.length = s.serve.queue.length) ∧
    (before = [] → e.offerQueued = false → (∀ x ∈ after, x.state ≠ .sending ∧ x.offerQueued = false) →
      txAnswer s.line (.offer e.key e.block e.mask) = .accepted →
      ∃ t, exec .serveDelay s = .next t ∧
        t.line.queue = s.line.queue ++ [TxEntry.mk (.offer e.key e.block e.mask) .serveOffer 0 false true] ∧
        t.serve.queue.head? = some { e with state := .offering, delayLeft := 0, offered := e.mask, offerQueued := true })

/-! ## The host port -/

/-- HCS# falling captures the port state and the event count; low at the end of a reset, it keeps the port closed until it
rises; an answer read of an answer clocks the port-state bytes, the answer frame and FFh, and empties the answer store exactly
when it is complete (R151, R152, R153, R159, R160). -/
def Obligations.TransactionsKeepProtocol : Prop :=
  ∀ s : State,
    (s.port.hcsLow = false → s.startUp.stage ≠ .held →
      exec .transactionBegin s = .next { s with port := { s.port with
        hcsLow := true, capState := s.port.state, capEvents := s.port.events.length } }) ∧
    (s.port.hcsLow = false → s.startUp.stage = .held →
      exec .transactionBegin s = .next { s with port := { s.port with hcsLow := true, disregard := true } }) ∧
    (s.port.hcsLow = true → s.port.disregard = true →
      exec .hcsHighAfterReset s = .next { s with port := { s.port with hcsLow := false, disregard := false } }) ∧
    (∀ (n : Nat) (a : Answer), portClosed s = false → s.port.hcsLow = true → s.port.capState = .answered →
      s.port.answer = some a →
      ∃ t, exec (.answerRead n) s = .next t ∧ t = { s with port := t.port } ∧ t.port.hcsLow = false ∧
        t.port.hdo = (([0xA2, BitVec.ofNat 8 s.port.capEvents] ++ answerBytes a) ++ List.replicate n 0xFF).take n ∧
        (if 2 + (answerBytes a).length ≤ n then t.port.state = .idle ∧ t.port.answer = none
          else t.port.state = s.port.state ∧ t.port.answer = some a) ∧
        t.port.command = s.port.command ∧ t.port.events = s.port.events)

/-- A command transaction whose frame is faulty is answered BAD-FRAME with its fault code outside TAKEN, and one that ends in
TAKEN is ignored; either way only the port changes, and an ignored one changes no more of it than its pins (R155, R156). -/
def Obligations.FaultyFramesAnswered : Prop :=
  ∀ (s : State) (bytes : List Byte), portClosed s = false → bytes ≠ [] → bytes.head? ≠ some 0xF0 →
    (∀ f, frameFault bytes = some f → s.port.state ≠ .taken →
      ∃ t, exec (.badFrame bytes) s = .next t ∧ t = { s with port := t.port } ∧ Answered t .badFrame [faultCode f] ∧
        t.port.events = s.port.events ∧ t.port.load = s.port.load) ∧
    (∀ c, (c = .frameIgnored bytes ∨ c = .badFrame bytes ∧ frameFault bytes ≠ none) → s.port.state = .taken →
      ∃ t, exec c s = .next t ∧ t = { s with port := t.port } ∧ t.port.state = .taken ∧ t.port.answer = s.port.answer ∧
        t.port.command = s.port.command ∧ t.port.events = s.port.events ∧ t.port.load = s.port.load)

/-- During the rebuild every command but ID, STAT and EVENT is answered NOT-READY; a command that is not, with another number
of parameter bytes than its own, is answered BAD-PARAM; in TAKEN it is ignored. Nothing but the port changes (R155, R158,
R166). -/
def Obligations.CommandsJudged : Prop :=
  ∀ (s : State) (params : Params), portClosed s = false → params.bytes.length ≤ 140 → NothingProtected s →
    (∀ c ∈ ([(.ident, 2), (.slots, 0), (.blocks, 4), (.peers, 1), (.read, 6), (.checksum, 3), (.accept, 2), (.floor, 2),
        (.loadBegin, 0), (.loadData, 130), (.loadEnd, 0), (.loadAbort, 0), (.publish, 1), (.hold, 0), (.resume, 0),
        (.wipe, 0)] : List ((Params → Instr) × Nat)),
      (s.port.state ≠ .taken → running s = false →
        exec (c.1 params) s = .next (answer .notReady [] (frameTaken params s))) ∧
      (s.port.state ≠ .taken → running s = true → params.bytes.length ≠ c.2 →
        exec (c.1 params) s = .next (answer .badParam [] (frameTaken params s))) ∧
      (s.port.state = .taken → exec (c.1 params) s = .next (frameClocked params s))) ∧
    (∀ c ∈ ([(.idReport, 0), (.stat, 0), (.event, 1)] : List ((Params → Instr) × Nat)),
      (s.port.state ≠ .taken → params.bytes.length ≠ c.2 →
        exec (c.1 params) s = .next (answer .badParam [] (frameTaken params s))) ∧
      (s.port.state = .taken → exec (c.1 params) s = .next (frameClocked params s))) ∧
    ∀ (pins : Straps) (left : Left),
      (s.port.state ≠ .taken → running s = false →
        exec (.restart params pins left) s = .next (answer .notReady [] (frameTaken params s))) ∧
      (s.port.state ≠ .taken → running s = true → params.bytes ≠ [] →
        exec (.restart params pins left) s = .next (answer .badParam [] (frameTaken params s))) ∧
      (s.port.state = .taken → exec (.restart params pins left) s = .next (frameClocked params s))

/-! ## Reports -/

/-- The reporting commands end OK at once, with payloads of the lengths the manual gives, read from the state as it stands;
EVENT takes its entries from the head of the queue; ID and STAT wait while the start-up reads run (R168, R170 to R174, R218). -/
def Obligations.ReportsAnswer : Prop :=
  ∀ (s : State) (more : Nat), PortReady s →
    (s.startUp.stage ≠ .reading →
      exec (.idReport ⟨[], more⟩) s = .next (answer .ok (idPayload s) (frameTaken ⟨[], more⟩ s)) ∧ (idPayload s).length = 18 ∧
      exec (.stat ⟨[], more⟩) s =
        .next (answer .ok (statPayload s) (frameTaken ⟨[], more⟩ s)) ∧ (statPayload s).length = 20) ∧
    (s.startUp.stage = .reading →
      exec (.idReport ⟨[], more⟩) s = .next (setCommand .idReport (frameTaken ⟨[], more⟩ s)) ∧
      exec (.stat ⟨[], more⟩) s = .next (setCommand .stat (frameTaken ⟨[], more⟩ s))) ∧
    (∀ n : Byte, 1 ≤ n.toNat → n.toNat ≤ 10 → ∃ t, exec (.event ⟨[n], more⟩) s = .next t ∧ t = { s with port := t.port } ∧
      t.port.events = s.port.events.drop n.toNat ∧
      Answered t .ok (BitVec.ofNat 8 (min n.toNat s.port.events.length) ::
        (s.port.events.take n.toNat).flatMap eventBytes)) ∧
    (running s = true →
      exec (.slots ⟨[], more⟩) s =
        .next (answer .ok (slotsPayload s) (frameTaken ⟨[], more⟩ s)) ∧ (slotsPayload s).length = 51 ∧
      (∀ (p first hi lo : Byte) (role : Role), roleParam p = some role → 1 ≤ (hi ++ lo).toNat →
        first.toNat + (hi ++ lo).toNat ≤ 256 →
        exec (.blocks ⟨[p, first, hi, lo], more⟩) s =
          .next (answer .ok (blocksPayload s role first.toNat (hi ++ lo).toNat) (frameTaken ⟨[p, first, hi, lo], more⟩ s)) ∧
        (blocksPayload s role first.toNat (hi ++ lo).toNat).length = 6 + (hi ++ lo).toNat) ∧
      ∀ n : Byte, n.toNat ≤ 23 → exec (.peers ⟨[n], more⟩) s =
        .next (answer .ok (peersPayload s n.toNat) (frameTaken ⟨[n], more⟩ s)))

/-- READ, CHECKSUM and IDENT hand their job to an idle sequencer, which takes it in the same event, and the port stays TAKEN;
READ and CHECK BLOCK resolve role, block and readability at that moment; fields out of range end BAD-PARAM, and a second IDENT
REFUSED-STATE (R20, R22, R34, R166, R169, R175, R176). -/
def Obligations.JobCommandsSubmit : Prop :=
  ∀ (s : State) (more : Nat), PortRuns s →
    (∀ (p b oh ol lh ll : Byte) (role : Role), roleParam p = some role → SequencerIdle s →
      (1 ≤ (lh ++ ll).toNat → (lh ++ ll).toNat ≤ 256 → (oh ++ ol).toNat + (lh ++ ll).toNat ≤ 2048 →
        ∃ (t : State) (v : Service), exec (.read ⟨[p, b, oh, ol, lh, ll], more⟩) s = .next t ∧ t.flash.service = some v ∧
          v.job = .readRange role b.toFin (oh ++ ol).toNat (lh ++ ll).toNat ∧ v.op = .main ∧
          v.resolved = some (resolve s role b.toFin) ∧ t.port.state = .taken ∧ t.port.command = some .read ∧
          DistributionKept s t ∧ t.cat = s.cat) ∧
      (2048 < (oh ++ ol).toNat + (lh ++ ll).toNat ∨ (lh ++ ll).toNat = 0 ∨ 256 < (lh ++ ll).toNat →
        exec (.read ⟨[p, b, oh, ol, lh, ll], more⟩) s =
          .next (answer .badParam [] (frameTaken ⟨[p, b, oh, ol, lh, ll], more⟩ s)))) ∧
    (∀ (p first n : Byte) (role : Role), roleParam p = some role → SequencerIdle s → 1 ≤ n.toNat → n.toNat ≤ 32 →
      first.toNat + n.toNat ≤ 256 →
      ∃ (t : State) (v : Service), exec (.checksum ⟨[p, first, n], more⟩) s = .next t ∧ t.flash.service = some v ∧
        v.job = .checkBlock role first.toFin ∧ v.resolved = some (resolve s role first.toFin) ∧ t.port.state = .taken ∧
        t.port.command = some (.checksum role first.toNat n.toNat []) ∧ DistributionKept s t ∧ t.cat = s.cat) ∧
    (∀ hi lo : Byte,
      (legalFamily (hi ++ lo) = true → s.startUp.reading = .blank → s.port.identSubmitted = false → SequencerIdle s →
        ∃ (t : State) (v : Service), exec (.ident ⟨[hi, lo], more⟩) s = .next t ∧ t.flash.service = some v ∧
          v.job = .programNode (hi ++ lo) ∧ v.op = .main ∧ t.port.identSubmitted = true ∧ t.port.state = .taken ∧
          t.startUp = s.startUp) ∧
      (legalFamily (hi ++ lo) = true → s.startUp.reading ≠ .blank ∨ s.port.identSubmitted = true →
        exec (.ident ⟨[hi, lo], more⟩) s =
          .next (answer .refusedState [readingCode s.startUp.reading] (frameTaken ⟨[hi, lo], more⟩ s))) ∧
      (legalFamily (hi ++ lo) = false → exec (.ident ⟨[hi, lo], more⟩) s =
        .next (answer .badParam [] (frameTaken ⟨[hi, lo], more⟩ s))))

/-! ## Host commands that change the part -/

/-- ACCEPT of the staged version starts the switch from COMPLETE; FLOOR of a version from the recorded floor to the active
version starts the floor append, and ends OK at once where it is the floor already. Frozen, ACCEPT and FLOOR end WORN; a wrong
state ends REFUSED-STATE and a version below the floor REFUSED-FLOOR (R62, R63, R65, R178, R179). -/
def Obligations.SwitchAndFloorStart : Prop :=
  ∀ (s : State) (ver : BitVec 16) (more : Nat), PortRuns s → NothingProtected s → (∀ j ∈ s.cat.work, blockOf j = none) →
    (s.cat.frozen = true → ver ≠ 0 →
      exec (.accept ⟨bytes16 ver, more⟩) s = .next (answer .worn (stagingPayload s) (frameTaken ⟨bytes16 ver, more⟩ s)) ∧
      exec (.floor ⟨bytes16 ver, more⟩) s =
        .next (answer .worn (bytes16 s.cat.recorded.floor) (frameTaken ⟨bytes16 ver, more⟩ s))) ∧
    (s.cat.frozen = false →
      (s.cat.procedure = .none → s.cat.stagingState = .complete → ver ≠ 0 →
        versionOf (stagingRec s).key = ver → s.cat.highSeq < 0xFFFFFFFE →
        ∃ t, exec (.accept ⟨bytes16 ver, more⟩) s = .next t ∧ t.cat.stagingState = .switching ∧
          t.cat.procedure = .switch false ∧ t.cat.activeSlot = s.cat.activeSlot ∧ t.cat.recorded = s.cat.recorded ∧
          t.cat.highSeq = s.cat.highSeq + 1 ∧ t.port.state = .taken ∧ t.port.command = some .accept) ∧
      (ver ≠ 0 → s.cat.procedure ≠ .none ∨ versionOf (stagingRec s).key ≠ ver ∨
          (s.cat.stagingState ≠ .complete ∧ s.cat.stagingState ≠ .retired) →
        exec (.accept ⟨bytes16 ver, more⟩) s =
          .next (answer .refusedState (stagingPayload s) (frameTaken ⟨bytes16 ver, more⟩ s))) ∧
      (s.cat.procedure = .none → s.cat.stagingState = .retired → (stagingRec s).whole = true → ver ≠ 0 →
        versionOf (stagingRec s).key = ver → ver < s.cat.recorded.floor →
        exec (.accept ⟨bytes16 ver, more⟩) s =
          .next (answer .refusedFloor (stagingPayload s ++ bytes16 s.cat.recorded.floor) (frameTaken ⟨bytes16 ver, more⟩ s))) ∧
      (s.cat.procedure = .none → s.cat.stagingState ≠ .reclaiming → s.cat.stagingState ≠ .loading →
        (ver < s.cat.recorded.floor ∨ activeVersion s < ver →
          exec (.floor ⟨bytes16 ver, more⟩) s =
            .next (answer .refusedFloor (bytes16 s.cat.recorded.floor) (frameTaken ⟨bytes16 ver, more⟩ s))) ∧
        (ver = s.cat.recorded.floor → ver ≤ activeVersion s →
          exec (.floor ⟨bytes16 ver, more⟩) s =
            .next (answer .ok (bytes16 s.cat.recorded.floor) (frameTaken ⟨bytes16 ver, more⟩ s))) ∧
        (s.cat.recorded.floor < ver → ver ≤ activeVersion s → s.cat.highSeq < 0xFFFFFFFE →
          ∃ t, exec (.floor ⟨bytes16 ver, more⟩) s = .next t ∧ t.cat.procedure = .floor ∧ t.cat.recorded = s.cat.recorded ∧
            t.cat.highSeq = s.cat.highSeq + 1 ∧ t.port.state = .taken ∧ t.port.command = some .floor)))

/-- LOAD BEGIN takes the staging slot to LOADING without a key, its blocks UNKNOWN or BLANK, the load record clear and the
fetch contexts IDLE. LOAD DATA programs a segment of a BLANK or FILLING block once, and erases an UNKNOWN or DEAD block first;
it ends REFUSED-STATE outside LOADING and for a segment of a FILLING block that is programmed already, and, which R182 does not
name, for one of a BLANK block too (DESIGN CHOICE, assumption log 15) (R66, R180 to R183). -/
def Obligations.LoadingTakesSegments : Prop :=
  ∀ (s : State) (more : Nat), PortRuns s → NothingProtected s →
    (s.cat.frozen = false → s.cat.procedure = .none → s.cat.stagingState ≠ .reclaiming → s.cat.stagingState ≠ .loading →
      s.startUp.family ≠ none → s.cat.highSeq < 0xFFFFFFFE → (∀ j ∈ s.cat.work, blockOf j = none) →
      ∃ t, exec (.loadBegin ⟨[], more⟩) s = .next t ∧ t.cat.stagingState = .loading ∧ t.cat.procedure = .loadBegin ∧
        (stagingRec t).key = none ∧ (stagingRec t).count = none ∧
        (∀ b, stagingBlock t b = .unknown ∨ stagingBlock t b = .blank) ∧ t.port.load = .cleared ∧
        (∀ i, (ctxOf t i).state = .idle) ∧ activeRec t = activeRec s ∧ t.port.state = .taken ∧
        t.port.command = some .loadBegin) ∧
    (∀ (bb g : Byte) (d : List Byte), d.length = 128 → g.toNat ≤ 15 →
      (s.cat.stagingState ≠ .loading →
        exec (.loadData ⟨bb :: g :: d, more⟩) s = .next (answer .refusedState [] (frameTaken ⟨bb :: g :: d, more⟩ s))) ∧
      (s.cat.stagingState = .loading → SequencerIdle s →
        ((stagingBlock s bb.toFin = .blank ∨ stagingBlock s bb.toFin = .filling) →
          hasSeg (loadMask s bb.toFin) (Fin.ofNat 16 g.toNat) = false →
          ∃ (t : State) (v : Service), exec (.loadData ⟨bb :: g :: d, more⟩) s = .next t ∧ t.flash.service = some v ∧
            v.job = .programSegment .host (stagingSlot s) bb.toFin (Fin.ofNat 16 g.toNat) d ∧ v.op = .main ∧
            stagingBlock t bb.toFin = .filling ∧ t.port.state = .taken ∧ t.port.load = s.port.load ∧
            DistributionKept s t) ∧
        ((stagingBlock s bb.toFin = .unknown ∨ stagingBlock s bb.toFin = .dead) →
          ∃ (t : State) (v : Service), exec (.loadData ⟨bb :: g :: d, more⟩) s = .next t ∧ t.flash.service = some v ∧
            v.job = .eraseUnit .host (stagingSlot s) bb.toFin ∧ v.op = .erase 0 ∧
            stagingBlock t bb.toFin = .erasing ∧ loadMask t bb.toFin = 0 ∧ t.port.state = .taken ∧
            DistributionKept s t) ∧
        ((stagingBlock s bb.toFin = .blank ∨ stagingBlock s bb.toFin = .filling) →
          hasSeg (loadMask s bb.toFin) (Fin.ofNat 16 g.toNat) = true →
          exec (.loadData ⟨bb :: g :: d, more⟩) s =
            .next (answer .refusedState (bb :: bytes16 (loadMask s bb.toFin)) (frameTaken ⟨bb :: g :: d, more⟩ s)))))

/-- LOAD END judges the manifest of the block 0 copy before any job: without one it ends BAD-IMAGE for block 0 with cause 01h,
and with a key of another family or a version not above the active one with cause 02h; otherwise the staging slot takes key
and block count and the verify of block 0 comes first. LOAD ABORT empties a LOADING slot (R67, R68, R184, R185, R187). -/
def Obligations.LoadingEnds : Prop :=
  ∀ (s : State) (more : Nat), PortRuns s → NothingProtected s → s.cat.stagingState = .loading → s.cat.procedure = .none →
    (s.cat.frozen = true → exec (.loadEnd ⟨[], more⟩) s = .next (answer .worn [] (frameTaken ⟨[], more⟩ s))) ∧
    (s.cat.frozen = false → loadedManifest s.port.load = none →
      exec (.loadEnd ⟨[], more⟩) s = .next (answer .badImage [0, 1] (frameTaken ⟨[], more⟩ s))) ∧
    (∀ m, s.cat.frozen = false → loadedManifest s.port.load = some m →
      (ofFamily s (loadedKey s.port.load m) = false ∨ (loadedKey s.port.load m).version ≤ activeVersion s →
        exec (.loadEnd ⟨[], more⟩) s = .next (answer .badImage [0, 2] (frameTaken ⟨[], more⟩ s))) ∧
      (ofFamily s (loadedKey s.port.load m) = true → activeVersion s < (loadedKey s.port.load m).version →
        stagingBlock s 0 = .filling → SequencerIdle s →
        ∃ (t : State) (v : Service), exec (.loadEnd ⟨[], more⟩) s = .next t ∧ t.flash.service = some v ∧
          v.job = .verifyBlock .host (stagingSlot s) 0 (.manifest (loadedKey s.port.load m)) none ∧
          (stagingRec t).key = some (loadedKey s.port.load m) ∧ (stagingRec t).count = some m.count ∧
          stagingBlock t 0 = .verifying ∧ t.cat.stagingState = .loading ∧ t.port.state = .taken)) ∧
    (s.cat.target = none → ∃ t, exec (.loadAbort ⟨[], more⟩) s = .next t ∧ t.cat.stagingState = .empty ∧
      (stagingRec t).key = none ∧ (stagingRec t).count = none ∧
      (∀ b, stagingBlock t b = .unknown ∨ stagingBlock t b = .blank) ∧ t.port.load = .cleared ∧ Answered t .ok [] ∧
      activeRec t = activeRec s)

/-- PUBLISH of a PRESENT active or COMPLETE staging image queues its RELEASE and stays TAKEN, ends REFUSED-STATE with the link
state where the link takes no frames, and REFUSED-STATE in every other slot state. HOLD and RESUME set and clear the flag and
end OK; under HOLD no ASK of a context in ASKING waits in the queue off the line (R128, R188, R189). -/
def Obligations.PublishAndHold : Prop :=
  ∀ (s : State) (more : Nat), PortRuns s → NothingProtected s →
    (∀ (p : Byte) (role : Role), roleParam p = some role →
      (publishable s role = false → exec (.publish ⟨[p], more⟩) s =
        .next (answer .refusedState [] (frameTaken ⟨[p], more⟩ s))) ∧
      ∀ k, publishable s role = true → (slotRec s (roleSlot s role)).key = some k →
        (linkSends s.line.link = false →
          exec (.publish ⟨[p], more⟩) s = .next (answer .refusedState [linkCode s.line.link] (frameTaken ⟨[p], more⟩ s))) ∧
        (linkSends s.line.link = true → classCount s.line.queue 0 = 0 →
          ∃ t, exec (.publish ⟨[p], more⟩) s = .next t ∧ t.port.state = .taken ∧ t.port.command = some .publish ∧
            t.line.queue = s.line.queue ++ [TxEntry.mk
              (.release k (BitVec.ofNat 8 ((slotRec s (roleSlot s role)).count.getD 0))) .catalogue 0 false true] ∧
            t.cat = s.cat ∧ t.flash = s.flash ∧ t.fetch = s.fetch ∧ t.serve = s.serve ∧ t.notice = s.notice)) ∧
    (∃ t, exec (.hold ⟨[], more⟩) s = .next t ∧ t.fetch.hold = true ∧ Answered t .ok [] ∧ t.flash = s.flash ∧ t.cat = s.cat ∧
      (∀ i, (ctxOf s i).state = .asking → (ctxOf t i).askQueued = true →
        ∃ e ∈ t.line.queue, e.owner = .fetch i ∧ e.onLine = true) ∧
      (∀ i, (ctxOf s i).state = .asking → (ctxOf s i).askQueued = true →
        ∀ e ∈ t.line.queue, e.owner = .fetch i → e.onLine = true) ∧
      ∀ i, (ctxOf t i).state = (ctxOf s i).state ∧ (ctxOf t i).tries = (ctxOf s i).tries) ∧
    ∃ t, exec (.resume ⟨[], more⟩) s = .next t ∧ t.fetch.hold = false ∧ Answered t .ok [] ∧ t.port.events = s.port.events

/-- WIPE empties the catalogue and abandons the fetch work, takes a sending link to LISTEN-ONLY with its timer held, and stays
TAKEN without an answer; a job in service runs on, and where it is a record job WIPE waits for it before its first erase.
RESTART is a device reset in the event in which it is taken, with the job in service cut short (R87, R190, R191, R207, R208). -/
def Obligations.WipeAndRestart : Prop :=
  ∀ (s : State) (more : Nat), PortRuns s → NothingProtected s →
    (∃ t, exec (.wipe ⟨[], more⟩) s = .next t ∧
      t.cat.procedure = .wipe (if recordInService s then .drain else .control 0) false ∧
      (∀ v, s.flash.service = some v → ∃ w, t.flash.service = some w ∧ w.job = v.job ∧ w.op = v.op) ∧ t.mem = s.mem ∧
      t.cat.slotA = .cleared ∧
      t.cat.slotB = .cleared ∧ t.cat.activeState = .none ∧ t.cat.stagingState = .empty ∧ t.cat.target = none ∧
      t.cat.recorded = s.cat.recorded ∧ (∀ i, (ctxOf t i).state = .idle) ∧ t.fetch.deferral = [] ∧
      (linkSends s.line.link = true → t.line.link = .listenOnly ∧ t.line.listen = .held ∧ t.serve.queue = []) ∧
      (s.line.link = .listenOnly → t.line.link = .listenOnly ∧ t.line.listen = .held) ∧
      t.port.state = .taken ∧ t.port.command = some .wipe ∧ t.port.answer = none) ∧
    ∀ (pins : Straps) (left : Left), cutLegal left s = true →
      exec (.restart ⟨[], more⟩ pins left) s = .next { State.afterReset
        (if s.pins.power && !s.pins.resetLow then .reading else .held) { s.pins with straps := pins }
        (cutShort left s).mem false with pending := s.pending }

/-! ## Reset and start-up -/

/-- A device reset and a loss of power leave the pins, the array as the cut job leaves it, the level of HCS# and the queue of
commands, and every other state at its reset value; start-up begins once RESET# is high and power present, with the straps
sampled then (R40, R151, R192, R193). -/
def Obligations.ResetsClearState : Prop :=
  ∀ (s : State) (pins : Straps) (left : Left), cutLegal left s = true →
    (∀ low, exec (.deviceReset (.powerOn low) pins left) s = .next { State.afterReset (if low then .held else .reading)
      { power := true, resetLow := low, straps := pins } (cutShort left s).mem s.port.hcsLow with pending := s.pending }) ∧
    exec (.deviceReset .resetLow pins left) s = .next { State.afterReset .held
      { s.pins with resetLow := true, straps := pins } (cutShort left s).mem s.port.hcsLow with pending := s.pending } ∧
    (s.pins.power = true → exec (.powerLoss left) s = .next { State.afterReset .held
      { s.pins with power := false } (cutShort left s).mem s.port.hcsLow with pending := s.pending }) ∧
    (s.startUp.stage = .held → s.pins.power = true → exec (.startUpBegins pins) s = .next { s with
      pins := { s.pins with resetLow := false, straps := pins }, startUp := .reset .reading pins })

/-- The start-up reads hand over what the array holds: the ruling record becomes the recorded view with its active slot. With
no ruling and no voided record the part is RUNNING at once with no image: without a configuration fault the link enters
JOINING, with one it stays OFFLINE (R7, R13, R194, R196, R197, R205). -/
def Obligations.StartUpReadsHandOver : Prop :=
  ∀ s : State, s.startUp.stage = .reading → s.port.command = none → NothingProtected s → LinkLegal s →
    (∀ u r, rulingRecord s.mem = some (u, r) → ∃ t, exec .startUpReadsEnd s = .next t ∧ t.cat.recorded = r ∧
      t.cat.commitUnit = u ∧ t.cat.highSeq = r.seq ∧ t.cat.activeSlot = r.active.getD .b ∧ t.cat.frozen = false ∧
      t.mem = s.mem) ∧
    (rulingRecord s.mem = none → voidedUnit s.mem = none →
      ∃ t, exec .startUpReadsEnd s = .next t ∧ t.startUp.stage = .running ∧ t.cat.activeState = .none ∧
        t.cat.stagingState = .empty ∧ t.cat.activeSlot = .b ∧ t.cat.recorded = .cleared ∧
        t.startUp.reading = nodeReading (readNode s.mem) ∧
        (if nodeReading (readNode s.mem) = .configured ∧ legalSource s.startUp.straps.address = true then
          t.line.link = .joining ∧ t.line.joinLeft = some 300 ∧
            t.port.events = raiseIn .linkChange (byteDetail 1) s.port.events
        else t.line = s.line ∧ t.port.events = s.port.events))
end

