-- ==== Sys2Proof/Laws/Flags.lean ====
section
/-! SUPPORT. The check codes are plain folds of their bits and bytes. -/

namespace Sys2Proof.Machine

theorem strictFold_eq {w : Nat} {α : Type} (f : BitVec w → α → BitVec w) (r : BitVec w) (l : List α) :
    strictFold f r l = l.foldl f r := by
  induction l generalizing r with
  | nil => rfl
  | cons x xs ih =>
    rw [List.foldl_cons, ← ih, strictFold]
    split <;> rename_i h
    · rw [show f r x = 0 from BitVec.eq_of_toNat_eq (by simpa using h)]
    · rw [show _ + 1 = (f r x).toNat from h.symm, BitVec.ofNat_toNat, BitVec.setWidth_eq]

theorem crc16_eq (bits : List Bool) : crc16 bits = bits.foldl crc16Bit 0xFFFF := strictFold_eq ..

theorem crc32Feed_eq (r : BitVec 32) (bytes : List Byte) :
    crc32Feed r bytes = bytes.foldl (fun r b => (lsbFirst b).foldl crc32Bit r) r := by
  simp only [crc32Feed, strictFold_eq]

theorem crc8_eq (bytes : List Byte) : crc8 bytes = bytes.foldl crc8Byte 0 := strictFold_eq ..

/-- A running CRC-32 over two runs is the CRC-32 over their concatenation. -/
theorem crc32Feed_append (r : BitVec 32) (a b : List Byte) :
    crc32Feed r (a ++ b) = crc32Feed (crc32Feed r a) b := by simp only [crc32Feed_eq, List.foldl_append]

end Sys2Proof.Machine
end

