-- ==== Sys2Proof/Laws/Memory.lean ====
section
/-! SUPPORT. The laws of the memory array: every operation keeps its canonical form, a read after a write, and what
erases and programs leave byte by byte. -/

namespace Sys2Proof.Machine

/-! ## The canonical form -/

theorem Memory.write_bound (m : List Host.Cell) (a b : Nat) (v : Byte) (hb : b < a) (h : ∀ c ∈ m, b < c.1) :
    ∀ c ∈ Memory.write m a v, b < c.1 := by
  induction m with
  | nil => unfold Memory.write; split <;> simp_all
  | cons c cs ih =>
    have ih' := ih (fun d hd => h d (by simp [hd]))
    have hc := h c (by simp)
    have hcs : ∀ d ∈ cs, b < d.1 := fun d hd => h d (by simp [hd])
    unfold Memory.write
    split_ifs
    · exact h
    · exact List.forall_mem_cons.mpr ⟨hb, h⟩
    · exact hcs
    · exact List.forall_mem_cons.mpr ⟨hb, hcs⟩
    · exact List.forall_mem_cons.mpr ⟨hc, ih'⟩

/-- A write keeps the canonical form. -/
theorem Memory.wf_write {m : List Host.Cell} (h : Memory.wf m) (a : Nat) (v : Byte) : Memory.wf (Memory.write m a v) := by
  induction m with
  | nil => unfold Memory.write; split <;> simp_all [Memory.wf]
  | cons c cs ih =>
    obtain ⟨hs, hu⟩ := h
    have hcs : Memory.wf cs := ⟨(List.pairwise_cons.mp hs).2, fun d hd => hu d (by simp [hd])⟩
    have hlt := (List.pairwise_cons.mp hs).1
    have hc := hu c (by simp)
    unfold Memory.write
    split_ifs with h1 h2 h3 h4
    · exact ⟨hs, hu⟩
    · refine ⟨List.pairwise_cons.mpr ⟨?_, hs⟩, ?_⟩
      · intro d hd
        simp at hd
        rcases hd with hd | hd
        · subst hd; exact h1
        · exact lt_trans h1 (hlt d hd)
      · intro d hd
        simp at hd
        rcases hd with hd | hd
        · subst hd; exact h2
        · exact hu d (by simp [hd])
    · exact hcs
    · refine ⟨List.pairwise_cons.mpr ⟨?_, hcs.1⟩, ?_⟩
      · intro d hd; rw [h3]; exact hlt d hd
      · intro d hd
        simp at hd
        rcases hd with hd | hd
        · subst hd; exact h4
        · exact hcs.2 d hd
    · have ih' := ih hcs
      refine ⟨List.pairwise_cons.mpr ⟨?_, ih'.1⟩, ?_⟩
      · exact Memory.write_bound cs a c.1 v (by omega) hlt
      · intro d hd
        simp at hd
        rcases hd with hd | hd
        · subst hd; exact hc
        · exact ih'.2 d hd

theorem wf_writeBytes {m : List Host.Cell} (h : Memory.wf m) (a : Nat) (vs : List Byte) :
    Memory.wf (writeBytes m a vs) := by
  induction vs generalizing m a with
  | nil => exact h
  | cons v vs ih => exact ih (Memory.wf_write h a v) (a + 1)

theorem wf_eraseUnit {m : List Host.Cell} (h : Memory.wf m) (u : Nat) : Memory.wf (eraseUnit m u) :=
  ⟨h.1.filter _, fun c hc => h.2 c (List.mem_filter.mp hc).1⟩

theorem wf_eraseLeaving {m : List Host.Cell} (h : Memory.wf m) (u : Nat) (l : Left) : Memory.wf (eraseLeaving m u l) :=
  wf_writeBytes (wf_eraseUnit h u) _ _

theorem wf_programLeaving {m : List Host.Cell} (h : Memory.wf m) (u o : Nat) (p : List Byte) (l : Left) :
    Memory.wf (programLeaving m u o p l) := wf_writeBytes h _ _

/-- The operation in service keeps the canonical form, whatever it leaves. -/
theorem wf_operationLeaves {s : State} (h : Memory.wf s.mem) (v : Service) (l : Left) :
    Memory.wf (operationLeaves s v l) := by
  unfold operationLeaves
  split
  · exact wf_eraseLeaving h _ _
  · split
    · exact wf_programLeaving h _ _ _ _
    · exact h

theorem wf_cutShort {s : State} (h : Memory.wf s.mem) (l : Left) : Memory.wf (cutShort l s).mem := by
  unfold cutShort
  split
  · exact h
  · exact wf_operationLeaves h _ _

theorem reset_memory_wf : Memory.wf State.reset.mem := by
  constructor
  · exact List.Pairwise.nil
  · intro c hc; cases hc

/-! ## Read after write -/

/-- An address below every listed one reads as unlisted. -/
theorem Memory.read_below {m : List Host.Cell} {a : Nat} (h : ∀ c ∈ m, a < c.1) : Memory.read m a = unlisted a := by
  induction m with
  | nil => rfl
  | cons c cs ih =>
    have hc := h c (by simp)
    unfold Memory.read
    rw [if_neg (by omega), ih (fun d hd => h d (by simp [hd]))]

/-- A read after a write to the same address gives the value; every other address reads as before. -/
theorem Memory.read_write {m : List Host.Cell} (h : Memory.wf m) (a b : Nat) (v : Byte) :
    Memory.read (Memory.write m a v) b = if b = a then v else Memory.read m b := by
  induction m with
  | nil =>
    unfold Memory.write
    split_ifs with h1 h2 h2 <;> simp_all [Memory.read] <;> intro hh <;> simp_all
  | cons c cs ih =>
    obtain ⟨hs, hu⟩ := h
    have hcs : Memory.wf cs := ⟨(List.pairwise_cons.mp hs).2, fun d hd => hu d (by simp [hd])⟩
    have hlt := (List.pairwise_cons.mp hs).1
    unfold Memory.write
    split_ifs with h1 h2 h3 h3 h4 h4 h5 h5 h5
    · subst h3
      rw [h2]
      exact Memory.read_below (fun d hd => by
        simp at hd
        rcases hd with hd | hd
        · subst hd; exact h1
        · exact lt_trans h1 (hlt d hd))
    · rfl
    · simp [Memory.read, h3]
    · simp [Memory.read, Ne.symm h3]
    · subst h5
      rw [h4]
      exact Memory.read_below (fun d hd => by have := hlt d hd; omega)
    · have hne : ¬ c.1 = b := by omega
      simp [Memory.read, hne]
    · simp [Memory.read, h5]
    · have hne : ¬ c.1 = b := by omega
      have hne' : ¬ a = b := by omega
      simp [Memory.read, hne, hne']
    · have hne : ¬ c.1 = b := by omega
      have := ih hcs
      rw [if_pos h5] at this
      simp [Memory.read, hne, this]
    · have := ih hcs
      rw [if_neg h5] at this
      simp [Memory.read, this]

/-- What a run of written bytes reads as: the bytes inside it, and the array as before outside. -/
theorem read_writeBytes {m : List Host.Cell} (h : Memory.wf m) (a b : Nat) (vs : List Byte) :
    Memory.read (writeBytes m a vs) b =
      if a ≤ b ∧ b < a + vs.length then vs.getD (b - a) 0 else Memory.read m b := by
  induction vs generalizing m a with
  | nil =>
    have : ¬ (a ≤ b ∧ b < a + ([] : List Byte).length) := by simp
    rw [if_neg this]; rfl
  | cons v vs ih =>
    have := ih (Memory.wf_write h a v) (a + 1)
    rw [writeBytes, this, Memory.read_write h]
    by_cases h0 : b = a
    · subst h0
      have n1 : ¬ (b + 1 ≤ b ∧ b < b + 1 + vs.length) := by omega
      have n2 : b ≤ b ∧ b < b + (v :: vs).length := by simp
      simp only [n1, n2]; simp
    · by_cases h1 : a + 1 ≤ b ∧ b < a + 1 + vs.length
      · have h2 : a ≤ b ∧ b < a + (v :: vs).length := by simp; omega
        rw [if_pos h1, if_pos h2]
        have : b - a = (b - (a + 1)) + 1 := by omega
        rw [this]; simp
      · have h2 : ¬ (a ≤ b ∧ b < a + (v :: vs).length) := by simp; omega
        rw [if_neg h1, if_neg h2, if_neg h0]

/-- An erased unit reads FFh, but for what an unlisted address holds; every other unit reads as before (R2). -/
theorem read_eraseUnit {m : List Host.Cell} (u b : Nat) :
    Memory.read (eraseUnit m u) b = if unitAddr u 0 ≤ b ∧ b < unitAddr u 2048 then unlisted b else Memory.read m b := by
  induction m with
  | nil => unfold eraseUnit; simp [Memory.read]
  | cons c cs ih =>
    unfold eraseUnit at ih ⊢
    by_cases hc : (c.1 < unitAddr u 0 || unitAddr u 2048 ≤ c.1) = true
    · rw [List.filter_cons, if_pos hc]
      simp only [Memory.read]
      rw [ih]
      split_ifs with h1 h2 h2
      · subst h1; simp at hc; omega
      · rfl
      · rfl
      · rfl
    · rw [List.filter_cons, if_neg hc, ih]
      split_ifs with h1
      · rfl
      · have : ¬ c.1 = b := by
          intro hb; subst hb; simp at hc; omega
        simp [Memory.read, this]

theorem length_readBytes (m : List Host.Cell) (a n : Nat) : (readBytes m a n).length = n := by
  induction n generalizing a with
  | zero => rfl
  | succ n ih => simp [readBytes, ih]

theorem getD_readBytes (m : List Host.Cell) (a n i : Nat) (h : i < n) :
    (readBytes m a n).getD i 0 = Memory.read m (a + i) := by
  induction n generalizing a i with
  | zero => omega
  | succ n ih =>
    cases i with
    | zero => simp [readBytes]
    | succ i =>
      have := ih (a + 1) i (by omega)
      simp [readBytes] at this ⊢
      rw [this]; congr 1; omega

/-- Two runs are equal when every byte of them reads alike. -/
theorem readBytes_ext {m m' : List Host.Cell} {a n : Nat} (h : ∀ i < n, Memory.read m (a + i) = Memory.read m' (a + i)) :
    readBytes m a n = readBytes m' a n := by
  induction n generalizing a with
  | zero => rfl
  | succ n ih =>
    simp only [readBytes]
    rw [show Memory.read m a = Memory.read m' a by simpa using h 0 (by omega)]
    rw [ih (a := a + 1) (fun i hi => by
      have := h (i + 1) (by omega)
      rw [show a + 1 + i = a + (i + 1) by omega]; exact this)]

theorem length_programmed (before pattern : List Byte) (h : before.length = pattern.length) :
    (programmed before pattern).length = pattern.length := by simp [programmed, h]

theorem length_programLeft_expected (before pattern : List Byte) (h : before.length = pattern.length) :
    (programLeft before pattern .expected).length = pattern.length := length_programmed before pattern h

/-! ## What erases and programs leave -/

theorem length_programLeft (before pattern : List Byte) (l : Left) (h : before.length = pattern.length) :
    (programLeft before pattern l).length = pattern.length := by
  cases l with
  | expected => exact length_programmed before pattern h
  | worn c => simp [programLeft, programmed, h]; omega
  | cut k => simp [programLeft, h]

theorem getD_programmed (before pattern : List Byte) (h : before.length = pattern.length) (i : Nat)
    (hi : i < pattern.length) : (programmed before pattern).getD i 0 = before.getD i 0 &&& byteAt pattern i := by
  have hb : i < before.length := by omega
  simp [programmed, byteAt, List.getD_eq_getElem?_getD, hi, hb]

/-- A program that runs to its end, or is cut short, leaves a content that R40 allows. -/
theorem cutContent_programLeft (before pattern : List Byte) (l : Left) (h : before.length = pattern.length)
    (hl : ∀ c, l ≠ .worn c) : cutContent before pattern (programLeft before pattern l) = true := by
  simp only [cutContent, List.all_eq_true, List.mem_range, Bool.and_eq_true, decide_eq_true_eq]
  intro i hi
  have hb : i < before.length := by omega
  cases l with
  | worn c => exact absurd rfl (hl c)
  | expected =>
    have := getD_programmed before pattern h i hi
    simp only [programLeft, byteAt] at *
    rw [this]
    constructor <;> (ext j; simp +contextual)
  | cut k =>
    simp only [programLeft, byteAt, List.getD_eq_getElem?_getD]
    simp [hi, hb]
    constructor <;> (ext j; simp +contextual)

/-- A program changes no byte outside its pattern's run, and leaves inside it what the program leaves (R3, R40). -/
theorem read_programLeaving {m : List Host.Cell} (h : Memory.wf m) (u o : Nat) (pattern : List Byte) (l : Left) (b : Nat) :
    Memory.read (programLeaving m u o pattern l) b =
      if unitAddr u o ≤ b ∧ b < unitAddr u o + pattern.length then
        (programLeft (readBytes m (unitAddr u o) pattern.length) pattern l).getD (b - unitAddr u o) 0
      else Memory.read m b := by
  unfold programLeaving
  rw [read_writeBytes h, length_programLeft _ _ _ (length_readBytes ..)]

/-- The end of a run is the run that starts there. -/
theorem readBytes_drop (m : List Host.Cell) (a k n : Nat) : readBytes m (a + k) n = ((readBytes m a (k + n)).drop k) := by
  induction k generalizing a with
  | zero => simp
  | succ k ih => rw [show k + 1 + n = (k + n) + 1 by omega, readBytes, List.drop_succ_cons, ← ih]; congr 1; omega

/-- The front of a run is the shorter run. -/
theorem readBytes_take (m : List Host.Cell) (a k n : Nat) : (readBytes m a (k + n)).take k = readBytes m a k := by
  induction k generalizing a with
  | zero => simp [readBytes]
  | succ k ih => rw [show k + 1 + n = (k + n) + 1 by omega, readBytes, List.take_succ_cons, ih, readBytes]

/-- A program's run reads back as what the program leaves. -/
theorem readBytes_programLeaving {m : List Host.Cell} (h : Memory.wf m) (u o : Nat) (pattern : List Byte) (l : Left) :
    readBytes (programLeaving m u o pattern l) (unitAddr u o) pattern.length =
      programLeft (readBytes m (unitAddr u o) pattern.length) pattern l := by
  have hp := length_programLeft _ _ l (length_readBytes m (unitAddr u o) pattern.length)
  apply List.ext_getElem
  · rw [length_readBytes, hp]
  · intro i h1 h2
    have h3 : i < pattern.length := by rwa [length_readBytes] at h1
    have := getD_readBytes (programLeaving m u o pattern l) (unitAddr u o) pattern.length i h3
    rw [read_programLeaving h, if_pos (by omega)] at this
    simpa [List.getD_eq_getElem?_getD, h1, h2] using this

theorem length_erasedLeft (l : Left) : (erasedLeft l).length ≤ 2048 := by
  cases l <;> simp [erasedLeft]

/-- Outside C0 an unlisted byte reads FFh (R4, R6). -/
theorem unlisted_erased {u i : Nat} (hu : u ≠ 512) (hi : i < 2048) : unlisted (unitAddr u i) = erasedByte := by
  unfold unlisted unitAddr
  rw [if_neg (by omega)]

/-- An erase changes no byte outside its unit, and leaves inside it what the erase leaves, FFh beyond that (R2, R40). -/
theorem read_eraseLeaving {m : List Host.Cell} (h : Memory.wf m) (u : Nat) (l : Left) (b : Nat) :
    Memory.read (eraseLeaving m u l) b =
      if unitAddr u 0 ≤ b ∧ b < unitAddr u 2048 then
        (erasedLeft l).getD (b - unitAddr u 0) (unlisted b)
      else Memory.read m b := by
  unfold eraseLeaving
  have hl := length_erasedLeft l
  rw [read_writeBytes (wf_eraseUnit h u), read_eraseUnit]
  have h0 : unitAddr u 2048 = unitAddr u 0 + 2048 := by unfold unitAddr; omega
  by_cases h1 : unitAddr u 0 ≤ b ∧ b < unitAddr u 0 + (erasedLeft l).length
  · rw [if_pos h1, if_pos (by omega)]
    have : b - unitAddr u 0 < (erasedLeft l).length := by omega
    simp [List.getD_eq_getElem?_getD, List.getElem?_eq_getElem this]
  · rw [if_neg h1]
    by_cases h2 : unitAddr u 0 ≤ b ∧ b < unitAddr u 2048
    · rw [if_pos h2, if_pos h2]
      have : (erasedLeft l).length ≤ b - unitAddr u 0 := by omega
      simp [List.getD_eq_getElem?_getD, List.getElem?_eq_none this]
    · rw [if_neg h2, if_neg h2]

end Sys2Proof.Machine
end

