-- ==== Sys2Proof/Laws/PerInstr.lean ====
section
/-! SUPPORT. What a well-formed command carries, said for each command: the sizes and ranges the manual gives its operands. -/

namespace Sys2Proof.Laws

/-- The parameter bytes of a host command (R154). -/
def paramsOf : Instr → Option Params
  | .deviceReset _ _ _ => none
  | .powerLoss _ => none
  | .startUpReadsEnd => none
  | .eraseAttempt _ => none
  | .spareEntryProgram _ => none
  | .programSegment _ => none
  | .verifyBlock => none
  | .readSegment => none
  | .readRange => none
  | .checkBlock => none
  | .setMark _ => none
  | .appendRecord _ => none
  | .overtime _ => none
  | .lineIdle => none
  | .contentionLost => none
  | .bitError => none
  | .attemptEnd _ => none
  | .frameDiscarded _ _ => none
  | .clash => none
  | .releaseReceived _ _ _ => none
  | .offerReceived _ _ _ _ => none
  | .askReceived _ _ _ _ _ => none
  | .segmentReceived _ _ _ _ _ => none
  | .noticeReceived _ _ => none
  | .joinTimer => none
  | .listenOnlyTimer => none
  | .periodicTimer => none
  | .spacingTimer => none
  | .peerAgedOut _ => none
  | .claimWindow _ => none
  | .silenceTimer _ => none
  | .deferralTimer => none
  | .serveDelay => none
  | .transactionBegin => none
  | .answerRead _ => none
  | .badFrame _ => none
  | .frameIgnored _ => none
  | .idReport params => some params
  | .ident params => some params
  | .stat params => some params
  | .slots params => some params
  | .blocks params => some params
  | .peers params => some params
  | .event params => some params
  | .read params => some params
  | .checksum params => some params
  | .accept params => some params
  | .floor params => some params
  | .loadBegin params => some params
  | .loadData params => some params
  | .loadEnd params => some params
  | .loadAbort params => some params
  | .publish params => some params
  | .hold params => some params
  | .resume params => some params
  | .wipe params => some params
  | .restart params _ _ => some params
  | .startUpBegins _ => none
  | .hcsHighAfterReset => none

/-- What the array operation a command ends or stops leaves (R2, R3, R40). -/
def leftOf : Instr → Option Left
  | .deviceReset _ _ left => some left
  | .powerLoss left => some left
  | .startUpReadsEnd => none
  | .eraseAttempt left => some left
  | .spareEntryProgram left => some left
  | .programSegment left => some left
  | .verifyBlock => none
  | .readSegment => none
  | .readRange => none
  | .checkBlock => none
  | .setMark left => some left
  | .appendRecord left => some left.content
  | .overtime left => some left.content
  | .lineIdle => none
  | .contentionLost => none
  | .bitError => none
  | .attemptEnd _ => none
  | .frameDiscarded _ _ => none
  | .clash => none
  | .releaseReceived _ _ _ => none
  | .offerReceived _ _ _ _ => none
  | .askReceived _ _ _ _ _ => none
  | .segmentReceived _ _ _ _ _ => none
  | .noticeReceived _ _ => none
  | .joinTimer => none
  | .listenOnlyTimer => none
  | .periodicTimer => none
  | .spacingTimer => none
  | .peerAgedOut _ => none
  | .claimWindow _ => none
  | .silenceTimer _ => none
  | .deferralTimer => none
  | .serveDelay => none
  | .transactionBegin => none
  | .answerRead _ => none
  | .badFrame _ => none
  | .frameIgnored _ => none
  | .idReport _ => none
  | .ident _ => none
  | .stat _ => none
  | .slots _ => none
  | .blocks _ => none
  | .peers _ => none
  | .event _ => none
  | .read _ => none
  | .checksum _ => none
  | .accept _ => none
  | .floor _ => none
  | .loadBegin _ => none
  | .loadData _ => none
  | .loadEnd _ => none
  | .loadAbort _ => none
  | .publish _ => none
  | .hold _ => none
  | .resume _ => none
  | .wipe _ => none
  | .restart _ _ left => some left
  | .startUpBegins _ => none
  | .hcsHighAfterReset => none

/-- The source address of a frame that a command brings (R72). -/
def sourceOf : Instr → Option Addr
  | .deviceReset _ _ _ => none
  | .powerLoss _ => none
  | .startUpReadsEnd => none
  | .eraseAttempt _ => none
  | .spareEntryProgram _ => none
  | .programSegment _ => none
  | .verifyBlock => none
  | .readSegment => none
  | .readRange => none
  | .checkBlock => none
  | .setMark _ => none
  | .appendRecord _ => none
  | .overtime _ => none
  | .lineIdle => none
  | .contentionLost => none
  | .bitError => none
  | .attemptEnd _ => none
  | .frameDiscarded _ _ => none
  | .clash => none
  | .releaseReceived src _ _ => some src
  | .offerReceived src _ _ _ => some src
  | .askReceived src _ _ _ _ => some src
  | .segmentReceived src _ _ _ _ => some src
  | .noticeReceived src _ => some src
  | .joinTimer => none
  | .listenOnlyTimer => none
  | .periodicTimer => none
  | .spacingTimer => none
  | .peerAgedOut _ => none
  | .claimWindow _ => none
  | .silenceTimer _ => none
  | .deferralTimer => none
  | .serveDelay => none
  | .transactionBegin => none
  | .answerRead _ => none
  | .badFrame _ => none
  | .frameIgnored _ => none
  | .idReport _ => none
  | .ident _ => none
  | .stat _ => none
  | .slots _ => none
  | .blocks _ => none
  | .peers _ => none
  | .event _ => none
  | .read _ => none
  | .checksum _ => none
  | .accept _ => none
  | .floor _ => none
  | .loadBegin _ => none
  | .loadData _ => none
  | .loadEnd _ => none
  | .loadAbort _ => none
  | .publish _ => none
  | .hold _ => none
  | .resume _ => none
  | .wipe _ => none
  | .restart _ _ _ => none
  | .startUpBegins _ => none
  | .hcsHighAfterReset => none

/-- A well-formed command's parameter field is at most 140 bytes, its array content at most a unit, and its source
address a legal one (R1, R72, R154). -/
def Form.Statement (i : Instr) : Prop :=
  i.wellFormed = true →
    (∀ p ∈ paramsOf i, p.bytes.length ≤ 140) ∧ (∀ l ∈ leftOf i, l.wellFormed = true) ∧ ∀ a ∈ sourceOf i, legalSource a = true

theorem Form.deviceReset : ∀ cause pins left, Form.Statement (.deviceReset cause pins left) :=
  fun _ _ _ h => ⟨nofun, (fun _ e => by cases e; exact h), nofun⟩

theorem Form.powerLoss : ∀ left, Form.Statement (.powerLoss left) :=
  fun _ h => ⟨nofun, (fun _ e => by cases e; exact h), nofun⟩

theorem Form.startUpReadsEnd : Form.Statement (.startUpReadsEnd) :=
  fun _ => ⟨nofun, nofun, nofun⟩

theorem Form.eraseAttempt : ∀ left, Form.Statement (.eraseAttempt left) :=
  fun _ h => ⟨nofun, (fun _ e => by cases e; exact h), nofun⟩

theorem Form.spareEntryProgram : ∀ left, Form.Statement (.spareEntryProgram left) :=
  fun _ h => ⟨nofun, (fun _ e => by cases e; exact h), nofun⟩

theorem Form.programSegment : ∀ left, Form.Statement (.programSegment left) :=
  fun _ h => ⟨nofun, (fun _ e => by cases e; exact h), nofun⟩

theorem Form.verifyBlock : Form.Statement (.verifyBlock) :=
  fun _ => ⟨nofun, nofun, nofun⟩

theorem Form.readSegment : Form.Statement (.readSegment) :=
  fun _ => ⟨nofun, nofun, nofun⟩

theorem Form.readRange : Form.Statement (.readRange) :=
  fun _ => ⟨nofun, nofun, nofun⟩

theorem Form.checkBlock : Form.Statement (.checkBlock) :=
  fun _ => ⟨nofun, nofun, nofun⟩

theorem Form.setMark : ∀ left, Form.Statement (.setMark left) :=
  fun _ h => ⟨nofun, (fun _ e => by cases e; exact h), nofun⟩

theorem Form.appendRecord : ∀ left, Form.Statement (.appendRecord left) :=
  fun _ h => ⟨nofun, (fun _ e => by cases e; exact h), nofun⟩

theorem Form.overtime : ∀ left, Form.Statement (.overtime left) :=
  fun _ h => ⟨nofun, (fun _ e => by cases e; exact h), nofun⟩

theorem Form.lineIdle : Form.Statement (.lineIdle) :=
  fun _ => ⟨nofun, nofun, nofun⟩

theorem Form.contentionLost : Form.Statement (.contentionLost) :=
  fun _ => ⟨nofun, nofun, nofun⟩

theorem Form.bitError : Form.Statement (.bitError) :=
  fun _ => ⟨nofun, nofun, nofun⟩

theorem Form.attemptEnd : ∀ echoed, Form.Statement (.attemptEnd echoed) :=
  fun _ _ => ⟨nofun, nofun, nofun⟩

theorem Form.frameDiscarded : ∀ bits dominantDelimiter, Form.Statement (.frameDiscarded bits dominantDelimiter) :=
  fun _ _ _ => ⟨nofun, nofun, nofun⟩

theorem Form.clash : Form.Statement (.clash) :=
  fun _ => ⟨nofun, nofun, nofun⟩

theorem Form.releaseReceived : ∀ src key count, Form.Statement (.releaseReceived src key count) :=
  fun _ _ _ h => ⟨nofun, nofun, (fun _ e => by cases e; exact h)⟩

theorem Form.offerReceived : ∀ src key block mask, Form.Statement (.offerReceived src key block mask) :=
  fun _ _ _ _ h => ⟨nofun, nofun, (fun _ e => by cases e; exact (Bool.and_eq_true_iff.1 h).1)⟩

theorem Form.askReceived : ∀ src target key block mask, Form.Statement (.askReceived src target key block mask) :=
  fun _ _ _ _ _ h => ⟨nofun, nofun, (fun _ e => by cases e; exact (Bool.and_eq_true_iff.1 (Bool.and_eq_true_iff.1 h).1).1)⟩

theorem Form.segmentReceived : ∀ src key block index data, Form.Statement (.segmentReceived src key block index data) :=
  fun _ _ _ _ _ h => ⟨nofun, nofun, (fun _ e => by cases e; exact (Bool.and_eq_true_iff.1 (Bool.and_eq_true_iff.1 h).1).1)⟩

theorem Form.noticeReceived : ∀ src notice, Form.Statement (.noticeReceived src notice) :=
  fun _ _ h => ⟨nofun, nofun, (fun _ e => by cases e; exact h)⟩

theorem Form.joinTimer : Form.Statement (.joinTimer) :=
  fun _ => ⟨nofun, nofun, nofun⟩

theorem Form.listenOnlyTimer : Form.Statement (.listenOnlyTimer) :=
  fun _ => ⟨nofun, nofun, nofun⟩

theorem Form.periodicTimer : Form.Statement (.periodicTimer) :=
  fun _ => ⟨nofun, nofun, nofun⟩

theorem Form.spacingTimer : Form.Statement (.spacingTimer) :=
  fun _ => ⟨nofun, nofun, nofun⟩

theorem Form.peerAgedOut : ∀ addr, Form.Statement (.peerAgedOut addr) :=
  fun _ _ => ⟨nofun, nofun, nofun⟩

theorem Form.claimWindow : ∀ ctx, Form.Statement (.claimWindow ctx) :=
  fun _ _ => ⟨nofun, nofun, nofun⟩

theorem Form.silenceTimer : ∀ ctx, Form.Statement (.silenceTimer ctx) :=
  fun _ _ => ⟨nofun, nofun, nofun⟩

theorem Form.deferralTimer : Form.Statement (.deferralTimer) :=
  fun _ => ⟨nofun, nofun, nofun⟩

theorem Form.serveDelay : Form.Statement (.serveDelay) :=
  fun _ => ⟨nofun, nofun, nofun⟩

theorem Form.transactionBegin : Form.Statement (.transactionBegin) :=
  fun _ => ⟨nofun, nofun, nofun⟩

theorem Form.answerRead : ∀ bytes, Form.Statement (.answerRead bytes) :=
  fun _ _ => ⟨nofun, nofun, nofun⟩

theorem Form.badFrame : ∀ bytes, Form.Statement (.badFrame bytes) :=
  fun _ _ => ⟨nofun, nofun, nofun⟩

theorem Form.frameIgnored : ∀ bytes, Form.Statement (.frameIgnored bytes) :=
  fun _ _ => ⟨nofun, nofun, nofun⟩

theorem Form.idReport : ∀ params, Form.Statement (.idReport params) :=
  fun _ h => ⟨(fun _ e => by cases e; exact of_decide_eq_true h), nofun, nofun⟩

theorem Form.ident : ∀ params, Form.Statement (.ident params) :=
  fun _ h => ⟨(fun _ e => by cases e; exact of_decide_eq_true h), nofun, nofun⟩

theorem Form.stat : ∀ params, Form.Statement (.stat params) :=
  fun _ h => ⟨(fun _ e => by cases e; exact of_decide_eq_true h), nofun, nofun⟩

theorem Form.slots : ∀ params, Form.Statement (.slots params) :=
  fun _ h => ⟨(fun _ e => by cases e; exact of_decide_eq_true h), nofun, nofun⟩

theorem Form.blocks : ∀ params, Form.Statement (.blocks params) :=
  fun _ h => ⟨(fun _ e => by cases e; exact of_decide_eq_true h), nofun, nofun⟩

theorem Form.peers : ∀ params, Form.Statement (.peers params) :=
  fun _ h => ⟨(fun _ e => by cases e; exact of_decide_eq_true h), nofun, nofun⟩

theorem Form.event : ∀ params, Form.Statement (.event params) :=
  fun _ h => ⟨(fun _ e => by cases e; exact of_decide_eq_true h), nofun, nofun⟩

theorem Form.read : ∀ params, Form.Statement (.read params) :=
  fun _ h => ⟨(fun _ e => by cases e; exact of_decide_eq_true h), nofun, nofun⟩

theorem Form.checksum : ∀ params, Form.Statement (.checksum params) :=
  fun _ h => ⟨(fun _ e => by cases e; exact of_decide_eq_true h), nofun, nofun⟩

theorem Form.accept : ∀ params, Form.Statement (.accept params) :=
  fun _ h => ⟨(fun _ e => by cases e; exact of_decide_eq_true h), nofun, nofun⟩

theorem Form.floor : ∀ params, Form.Statement (.floor params) :=
  fun _ h => ⟨(fun _ e => by cases e; exact of_decide_eq_true h), nofun, nofun⟩

theorem Form.loadBegin : ∀ params, Form.Statement (.loadBegin params) :=
  fun _ h => ⟨(fun _ e => by cases e; exact of_decide_eq_true h), nofun, nofun⟩

theorem Form.loadData : ∀ params, Form.Statement (.loadData params) :=
  fun _ h => ⟨(fun _ e => by cases e; exact of_decide_eq_true h), nofun, nofun⟩

theorem Form.loadEnd : ∀ params, Form.Statement (.loadEnd params) :=
  fun _ h => ⟨(fun _ e => by cases e; exact of_decide_eq_true h), nofun, nofun⟩

theorem Form.loadAbort : ∀ params, Form.Statement (.loadAbort params) :=
  fun _ h => ⟨(fun _ e => by cases e; exact of_decide_eq_true h), nofun, nofun⟩

theorem Form.publish : ∀ params, Form.Statement (.publish params) :=
  fun _ h => ⟨(fun _ e => by cases e; exact of_decide_eq_true h), nofun, nofun⟩

theorem Form.hold : ∀ params, Form.Statement (.hold params) :=
  fun _ h => ⟨(fun _ e => by cases e; exact of_decide_eq_true h), nofun, nofun⟩

theorem Form.resume : ∀ params, Form.Statement (.resume params) :=
  fun _ h => ⟨(fun _ e => by cases e; exact of_decide_eq_true h), nofun, nofun⟩

theorem Form.wipe : ∀ params, Form.Statement (.wipe params) :=
  fun _ h => ⟨(fun _ e => by cases e; exact of_decide_eq_true h), nofun, nofun⟩

theorem Form.restart : ∀ params pins left, Form.Statement (.restart params pins left) :=
  fun _ _ _ h => ⟨(fun _ e => by cases e; exact of_decide_eq_true (Bool.and_eq_true_iff.1 h).1), (fun _ e => by cases e; exact (Bool.and_eq_true_iff.1 h).2), nofun⟩

theorem Form.startUpBegins : ∀ pins, Form.Statement (.startUpBegins pins) :=
  fun _ _ => ⟨nofun, nofun, nofun⟩

theorem Form.hcsHighAfterReset : Form.Statement (.hcsHighAfterReset) :=
  fun _ => ⟨nofun, nofun, nofun⟩

end Sys2Proof.Laws
end

