-- ==== Sys2Proof/Laws/State.lean ====
section
/-! SUPPORT. One lemma for each named update and each field of State it leaves as it was; true by unfolding. -/

namespace Sys2Proof.Machine

@[simp] theorem raise_pending (k : EventKind) (d : BitVec 32) (s : State) : (raise k d s).pending = s.pending := rfl
@[simp] theorem raise_pins (k : EventKind) (d : BitVec 32) (s : State) : (raise k d s).pins = s.pins := rfl
@[simp] theorem raise_mem (k : EventKind) (d : BitVec 32) (s : State) : (raise k d s).mem = s.mem := rfl
@[simp] theorem raise_startUp (k : EventKind) (d : BitVec 32) (s : State) : (raise k d s).startUp = s.startUp := rfl
@[simp] theorem raise_flash (k : EventKind) (d : BitVec 32) (s : State) : (raise k d s).flash = s.flash := rfl
@[simp] theorem raise_cat (k : EventKind) (d : BitVec 32) (s : State) : (raise k d s).cat = s.cat := rfl
@[simp] theorem raise_line (k : EventKind) (d : BitVec 32) (s : State) : (raise k d s).line = s.line := rfl
@[simp] theorem raise_notice (k : EventKind) (d : BitVec 32) (s : State) : (raise k d s).notice = s.notice := rfl
@[simp] theorem raise_fetch (k : EventKind) (d : BitVec 32) (s : State) : (raise k d s).fetch = s.fetch := rfl
@[simp] theorem raise_serve (k : EventKind) (d : BitVec 32) (s : State) : (raise k d s).serve = s.serve := rfl

@[simp] theorem answer_pending (r : ResultCode) (p : List Byte) (s : State) : (answer r p s).pending = s.pending := rfl
@[simp] theorem answer_pins (r : ResultCode) (p : List Byte) (s : State) : (answer r p s).pins = s.pins := rfl
@[simp] theorem answer_mem (r : ResultCode) (p : List Byte) (s : State) : (answer r p s).mem = s.mem := rfl
@[simp] theorem answer_startUp (r : ResultCode) (p : List Byte) (s : State) : (answer r p s).startUp = s.startUp := rfl
@[simp] theorem answer_flash (r : ResultCode) (p : List Byte) (s : State) : (answer r p s).flash = s.flash := rfl
@[simp] theorem answer_cat (r : ResultCode) (p : List Byte) (s : State) : (answer r p s).cat = s.cat := rfl
@[simp] theorem answer_line (r : ResultCode) (p : List Byte) (s : State) : (answer r p s).line = s.line := rfl
@[simp] theorem answer_notice (r : ResultCode) (p : List Byte) (s : State) : (answer r p s).notice = s.notice := rfl
@[simp] theorem answer_fetch (r : ResultCode) (p : List Byte) (s : State) : (answer r p s).fetch = s.fetch := rfl
@[simp] theorem answer_serve (r : ResultCode) (p : List Byte) (s : State) : (answer r p s).serve = s.serve := rfl

@[simp] theorem setCommand_pending (c : Command) (s : State) : (setCommand c s).pending = s.pending := rfl
@[simp] theorem setCommand_pins (c : Command) (s : State) : (setCommand c s).pins = s.pins := rfl
@[simp] theorem setCommand_mem (c : Command) (s : State) : (setCommand c s).mem = s.mem := rfl
@[simp] theorem setCommand_startUp (c : Command) (s : State) : (setCommand c s).startUp = s.startUp := rfl
@[simp] theorem setCommand_flash (c : Command) (s : State) : (setCommand c s).flash = s.flash := rfl
@[simp] theorem setCommand_cat (c : Command) (s : State) : (setCommand c s).cat = s.cat := rfl
@[simp] theorem setCommand_line (c : Command) (s : State) : (setCommand c s).line = s.line := rfl
@[simp] theorem setCommand_notice (c : Command) (s : State) : (setCommand c s).notice = s.notice := rfl
@[simp] theorem setCommand_fetch (c : Command) (s : State) : (setCommand c s).fetch = s.fetch := rfl
@[simp] theorem setCommand_serve (c : Command) (s : State) : (setCommand c s).serve = s.serve := rfl

@[simp] theorem setStagingState_pending (v : StagingState) (s : State) : (setStagingState v s).pending = s.pending := rfl
@[simp] theorem setStagingState_pins (v : StagingState) (s : State) : (setStagingState v s).pins = s.pins := rfl
@[simp] theorem setStagingState_mem (v : StagingState) (s : State) : (setStagingState v s).mem = s.mem := rfl
@[simp] theorem setStagingState_startUp (v : StagingState) (s : State) : (setStagingState v s).startUp = s.startUp := rfl
@[simp] theorem setStagingState_flash (v : StagingState) (s : State) : (setStagingState v s).flash = s.flash := rfl
@[simp] theorem setStagingState_line (v : StagingState) (s : State) : (setStagingState v s).line = s.line := rfl
@[simp] theorem setStagingState_notice (v : StagingState) (s : State) : (setStagingState v s).notice = s.notice := rfl
@[simp] theorem setStagingState_fetch (v : StagingState) (s : State) : (setStagingState v s).fetch = s.fetch := rfl
@[simp] theorem setStagingState_serve (v : StagingState) (s : State) : (setStagingState v s).serve = s.serve := rfl
@[simp] theorem setStagingState_port (v : StagingState) (s : State) : (setStagingState v s).port = s.port := rfl

@[simp] theorem setProcedure_pending (p : Procedure) (s : State) : (setProcedure p s).pending = s.pending := rfl
@[simp] theorem setProcedure_pins (p : Procedure) (s : State) : (setProcedure p s).pins = s.pins := rfl
@[simp] theorem setProcedure_mem (p : Procedure) (s : State) : (setProcedure p s).mem = s.mem := rfl
@[simp] theorem setProcedure_startUp (p : Procedure) (s : State) : (setProcedure p s).startUp = s.startUp := rfl
@[simp] theorem setProcedure_flash (p : Procedure) (s : State) : (setProcedure p s).flash = s.flash := rfl
@[simp] theorem setProcedure_line (p : Procedure) (s : State) : (setProcedure p s).line = s.line := rfl
@[simp] theorem setProcedure_notice (p : Procedure) (s : State) : (setProcedure p s).notice = s.notice := rfl
@[simp] theorem setProcedure_fetch (p : Procedure) (s : State) : (setProcedure p s).fetch = s.fetch := rfl
@[simp] theorem setProcedure_serve (p : Procedure) (s : State) : (setProcedure p s).serve = s.serve := rfl
@[simp] theorem setProcedure_port (p : Procedure) (s : State) : (setProcedure p s).port = s.port := rfl

@[simp] theorem setTarget_pending (t : Option (Key × Addr)) (s : State) : (setTarget t s).pending = s.pending := rfl
@[simp] theorem setTarget_pins (t : Option (Key × Addr)) (s : State) : (setTarget t s).pins = s.pins := rfl
@[simp] theorem setTarget_mem (t : Option (Key × Addr)) (s : State) : (setTarget t s).mem = s.mem := rfl
@[simp] theorem setTarget_startUp (t : Option (Key × Addr)) (s : State) : (setTarget t s).startUp = s.startUp := rfl
@[simp] theorem setTarget_flash (t : Option (Key × Addr)) (s : State) : (setTarget t s).flash = s.flash := rfl
@[simp] theorem setTarget_line (t : Option (Key × Addr)) (s : State) : (setTarget t s).line = s.line := rfl
@[simp] theorem setTarget_notice (t : Option (Key × Addr)) (s : State) : (setTarget t s).notice = s.notice := rfl
@[simp] theorem setTarget_fetch (t : Option (Key × Addr)) (s : State) : (setTarget t s).fetch = s.fetch := rfl
@[simp] theorem setTarget_serve (t : Option (Key × Addr)) (s : State) : (setTarget t s).serve = s.serve := rfl
@[simp] theorem setTarget_port (t : Option (Key × Addr)) (s : State) : (setTarget t s).port = s.port := rfl

@[simp] theorem setPeers_pending (ps : List Peer) (s : State) : (setPeers ps s).pending = s.pending := rfl
@[simp] theorem setPeers_pins (ps : List Peer) (s : State) : (setPeers ps s).pins = s.pins := rfl
@[simp] theorem setPeers_mem (ps : List Peer) (s : State) : (setPeers ps s).mem = s.mem := rfl
@[simp] theorem setPeers_startUp (ps : List Peer) (s : State) : (setPeers ps s).startUp = s.startUp := rfl
@[simp] theorem setPeers_flash (ps : List Peer) (s : State) : (setPeers ps s).flash = s.flash := rfl
@[simp] theorem setPeers_cat (ps : List Peer) (s : State) : (setPeers ps s).cat = s.cat := rfl
@[simp] theorem setPeers_line (ps : List Peer) (s : State) : (setPeers ps s).line = s.line := rfl
@[simp] theorem setPeers_fetch (ps : List Peer) (s : State) : (setPeers ps s).fetch = s.fetch := rfl
@[simp] theorem setPeers_serve (ps : List Peer) (s : State) : (setPeers ps s).serve = s.serve := rfl
@[simp] theorem setPeers_port (ps : List Peer) (s : State) : (setPeers ps s).port = s.port := rfl

@[simp] theorem setServeQueue_pending (q : List ServeEntry) (s : State) : (setServeQueue q s).pending = s.pending := rfl
@[simp] theorem setServeQueue_pins (q : List ServeEntry) (s : State) : (setServeQueue q s).pins = s.pins := rfl
@[simp] theorem setServeQueue_mem (q : List ServeEntry) (s : State) : (setServeQueue q s).mem = s.mem := rfl
@[simp] theorem setServeQueue_startUp (q : List ServeEntry) (s : State) : (setServeQueue q s).startUp = s.startUp := rfl
@[simp] theorem setServeQueue_flash (q : List ServeEntry) (s : State) : (setServeQueue q s).flash = s.flash := rfl
@[simp] theorem setServeQueue_cat (q : List ServeEntry) (s : State) : (setServeQueue q s).cat = s.cat := rfl
@[simp] theorem setServeQueue_line (q : List ServeEntry) (s : State) : (setServeQueue q s).line = s.line := rfl
@[simp] theorem setServeQueue_notice (q : List ServeEntry) (s : State) : (setServeQueue q s).notice = s.notice := rfl
@[simp] theorem setServeQueue_fetch (q : List ServeEntry) (s : State) : (setServeQueue q s).fetch = s.fetch := rfl
@[simp] theorem setServeQueue_port (q : List ServeEntry) (s : State) : (setServeQueue q s).port = s.port := rfl

@[simp] theorem setCtx_pending (i : Fin 4) (c : Ctx) (s : State) : (setCtx i c s).pending = s.pending := rfl
@[simp] theorem setCtx_pins (i : Fin 4) (c : Ctx) (s : State) : (setCtx i c s).pins = s.pins := rfl
@[simp] theorem setCtx_mem (i : Fin 4) (c : Ctx) (s : State) : (setCtx i c s).mem = s.mem := rfl
@[simp] theorem setCtx_startUp (i : Fin 4) (c : Ctx) (s : State) : (setCtx i c s).startUp = s.startUp := rfl
@[simp] theorem setCtx_flash (i : Fin 4) (c : Ctx) (s : State) : (setCtx i c s).flash = s.flash := rfl
@[simp] theorem setCtx_cat (i : Fin 4) (c : Ctx) (s : State) : (setCtx i c s).cat = s.cat := rfl
@[simp] theorem setCtx_line (i : Fin 4) (c : Ctx) (s : State) : (setCtx i c s).line = s.line := rfl
@[simp] theorem setCtx_notice (i : Fin 4) (c : Ctx) (s : State) : (setCtx i c s).notice = s.notice := rfl
@[simp] theorem setCtx_serve (i : Fin 4) (c : Ctx) (s : State) : (setCtx i c s).serve = s.serve := rfl
@[simp] theorem setCtx_port (i : Fin 4) (c : Ctx) (s : State) : (setCtx i c s).port = s.port := rfl

@[simp] theorem setLoad_pending (l : LoadRecord) (s : State) : (setLoad l s).pending = s.pending := rfl
@[simp] theorem setLoad_pins (l : LoadRecord) (s : State) : (setLoad l s).pins = s.pins := rfl
@[simp] theorem setLoad_mem (l : LoadRecord) (s : State) : (setLoad l s).mem = s.mem := rfl
@[simp] theorem setLoad_startUp (l : LoadRecord) (s : State) : (setLoad l s).startUp = s.startUp := rfl
@[simp] theorem setLoad_flash (l : LoadRecord) (s : State) : (setLoad l s).flash = s.flash := rfl
@[simp] theorem setLoad_cat (l : LoadRecord) (s : State) : (setLoad l s).cat = s.cat := rfl
@[simp] theorem setLoad_line (l : LoadRecord) (s : State) : (setLoad l s).line = s.line := rfl
@[simp] theorem setLoad_notice (l : LoadRecord) (s : State) : (setLoad l s).notice = s.notice := rfl
@[simp] theorem setLoad_fetch (l : LoadRecord) (s : State) : (setLoad l s).fetch = s.fetch := rfl
@[simp] theorem setLoad_serve (l : LoadRecord) (s : State) : (setLoad l s).serve = s.serve := rfl

@[simp] theorem setRebuild_pending (r : Rebuild) (s : State) : (setRebuild r s).pending = s.pending := rfl
@[simp] theorem setRebuild_pins (r : Rebuild) (s : State) : (setRebuild r s).pins = s.pins := rfl
@[simp] theorem setRebuild_mem (r : Rebuild) (s : State) : (setRebuild r s).mem = s.mem := rfl
@[simp] theorem setRebuild_flash (r : Rebuild) (s : State) : (setRebuild r s).flash = s.flash := rfl
@[simp] theorem setRebuild_cat (r : Rebuild) (s : State) : (setRebuild r s).cat = s.cat := rfl
@[simp] theorem setRebuild_line (r : Rebuild) (s : State) : (setRebuild r s).line = s.line := rfl
@[simp] theorem setRebuild_notice (r : Rebuild) (s : State) : (setRebuild r s).notice = s.notice := rfl
@[simp] theorem setRebuild_fetch (r : Rebuild) (s : State) : (setRebuild r s).fetch = s.fetch := rfl
@[simp] theorem setRebuild_serve (r : Rebuild) (s : State) : (setRebuild r s).serve = s.serve := rfl
@[simp] theorem setRebuild_port (r : Rebuild) (s : State) : (setRebuild r s).port = s.port := rfl

@[simp] theorem setService_pending (v : Service) (s : State) : (setService v s).pending = s.pending := rfl
@[simp] theorem setService_pins (v : Service) (s : State) : (setService v s).pins = s.pins := rfl
@[simp] theorem setService_mem (v : Service) (s : State) : (setService v s).mem = s.mem := rfl
@[simp] theorem setService_startUp (v : Service) (s : State) : (setService v s).startUp = s.startUp := rfl
@[simp] theorem setService_cat (v : Service) (s : State) : (setService v s).cat = s.cat := rfl
@[simp] theorem setService_line (v : Service) (s : State) : (setService v s).line = s.line := rfl
@[simp] theorem setService_notice (v : Service) (s : State) : (setService v s).notice = s.notice := rfl
@[simp] theorem setService_fetch (v : Service) (s : State) : (setService v s).fetch = s.fetch := rfl
@[simp] theorem setService_serve (v : Service) (s : State) : (setService v s).serve = s.serve := rfl
@[simp] theorem setService_port (v : Service) (s : State) : (setService v s).port = s.port := rfl

@[simp] theorem setHold_pending (v : Bool) (s : State) : (setHold v s).pending = s.pending := rfl
@[simp] theorem setHold_pins (v : Bool) (s : State) : (setHold v s).pins = s.pins := rfl
@[simp] theorem setHold_mem (v : Bool) (s : State) : (setHold v s).mem = s.mem := rfl
@[simp] theorem setHold_startUp (v : Bool) (s : State) : (setHold v s).startUp = s.startUp := rfl
@[simp] theorem setHold_flash (v : Bool) (s : State) : (setHold v s).flash = s.flash := rfl
@[simp] theorem setHold_cat (v : Bool) (s : State) : (setHold v s).cat = s.cat := rfl
@[simp] theorem setHold_line (v : Bool) (s : State) : (setHold v s).line = s.line := rfl
@[simp] theorem setHold_notice (v : Bool) (s : State) : (setHold v s).notice = s.notice := rfl
@[simp] theorem setHold_serve (v : Bool) (s : State) : (setHold v s).serve = s.serve := rfl
@[simp] theorem setHold_port (v : Bool) (s : State) : (setHold v s).port = s.port := rfl

@[simp] theorem leaveContent_pending (v : Service) (l : Left) (s : State) : (leaveContent v l s).pending = s.pending := rfl
@[simp] theorem leaveContent_pins (v : Service) (l : Left) (s : State) : (leaveContent v l s).pins = s.pins := rfl
@[simp] theorem leaveContent_startUp (v : Service) (l : Left) (s : State) : (leaveContent v l s).startUp = s.startUp := rfl
@[simp] theorem leaveContent_flash (v : Service) (l : Left) (s : State) : (leaveContent v l s).flash = s.flash := rfl
@[simp] theorem leaveContent_cat (v : Service) (l : Left) (s : State) : (leaveContent v l s).cat = s.cat := rfl
@[simp] theorem leaveContent_line (v : Service) (l : Left) (s : State) : (leaveContent v l s).line = s.line := rfl
@[simp] theorem leaveContent_notice (v : Service) (l : Left) (s : State) : (leaveContent v l s).notice = s.notice := rfl
@[simp] theorem leaveContent_fetch (v : Service) (l : Left) (s : State) : (leaveContent v l s).fetch = s.fetch := rfl
@[simp] theorem leaveContent_serve (v : Service) (l : Left) (s : State) : (leaveContent v l s).serve = s.serve := rfl
@[simp] theorem leaveContent_port (v : Service) (l : Left) (s : State) : (leaveContent v l s).port = s.port := rfl

@[simp] theorem withdrawJobs_pending (q : Queue) (p : Job → Bool) (s : State) : (withdrawJobs q p s).pending = s.pending := rfl
@[simp] theorem withdrawJobs_pins (q : Queue) (p : Job → Bool) (s : State) : (withdrawJobs q p s).pins = s.pins := rfl
@[simp] theorem withdrawJobs_mem (q : Queue) (p : Job → Bool) (s : State) : (withdrawJobs q p s).mem = s.mem := rfl
@[simp] theorem withdrawJobs_startUp (q : Queue) (p : Job → Bool) (s : State) : (withdrawJobs q p s).startUp = s.startUp := rfl
@[simp] theorem withdrawJobs_cat (q : Queue) (p : Job → Bool) (s : State) : (withdrawJobs q p s).cat = s.cat := rfl
@[simp] theorem withdrawJobs_line (q : Queue) (p : Job → Bool) (s : State) : (withdrawJobs q p s).line = s.line := rfl
@[simp] theorem withdrawJobs_notice (q : Queue) (p : Job → Bool) (s : State) : (withdrawJobs q p s).notice = s.notice := rfl
@[simp] theorem withdrawJobs_fetch (q : Queue) (p : Job → Bool) (s : State) : (withdrawJobs q p s).fetch = s.fetch := rfl
@[simp] theorem withdrawJobs_serve (q : Queue) (p : Job → Bool) (s : State) : (withdrawJobs q p s).serve = s.serve := rfl
@[simp] theorem withdrawJobs_port (q : Queue) (p : Job → Bool) (s : State) : (withdrawJobs q p s).port = s.port := rfl

@[simp] theorem txWithdraw_pending (p : TxEntry → Bool) (s : State) : (txWithdraw p s).pending = s.pending := rfl
@[simp] theorem txWithdraw_pins (p : TxEntry → Bool) (s : State) : (txWithdraw p s).pins = s.pins := rfl
@[simp] theorem txWithdraw_mem (p : TxEntry → Bool) (s : State) : (txWithdraw p s).mem = s.mem := rfl
@[simp] theorem txWithdraw_startUp (p : TxEntry → Bool) (s : State) : (txWithdraw p s).startUp = s.startUp := rfl
@[simp] theorem txWithdraw_flash (p : TxEntry → Bool) (s : State) : (txWithdraw p s).flash = s.flash := rfl
@[simp] theorem txWithdraw_cat (p : TxEntry → Bool) (s : State) : (txWithdraw p s).cat = s.cat := rfl
@[simp] theorem txWithdraw_notice (p : TxEntry → Bool) (s : State) : (txWithdraw p s).notice = s.notice := rfl
@[simp] theorem txWithdraw_fetch (p : TxEntry → Bool) (s : State) : (txWithdraw p s).fetch = s.fetch := rfl
@[simp] theorem txWithdraw_serve (p : TxEntry → Bool) (s : State) : (txWithdraw p s).serve = s.serve := rfl
@[simp] theorem txWithdraw_port (p : TxEntry → Bool) (s : State) : (txWithdraw p s).port = s.port := rfl

@[simp] theorem txGiveUp_pending (p : TxEntry → Bool) (s : State) : (txGiveUp p s).pending = s.pending := rfl
@[simp] theorem txGiveUp_pins (p : TxEntry → Bool) (s : State) : (txGiveUp p s).pins = s.pins := rfl
@[simp] theorem txGiveUp_mem (p : TxEntry → Bool) (s : State) : (txGiveUp p s).mem = s.mem := rfl
@[simp] theorem txGiveUp_startUp (p : TxEntry → Bool) (s : State) : (txGiveUp p s).startUp = s.startUp := rfl
@[simp] theorem txGiveUp_flash (p : TxEntry → Bool) (s : State) : (txGiveUp p s).flash = s.flash := rfl
@[simp] theorem txGiveUp_cat (p : TxEntry → Bool) (s : State) : (txGiveUp p s).cat = s.cat := rfl
@[simp] theorem txGiveUp_notice (p : TxEntry → Bool) (s : State) : (txGiveUp p s).notice = s.notice := rfl
@[simp] theorem txGiveUp_fetch (p : TxEntry → Bool) (s : State) : (txGiveUp p s).fetch = s.fetch := rfl
@[simp] theorem txGiveUp_serve (p : TxEntry → Bool) (s : State) : (txGiveUp p s).serve = s.serve := rfl
@[simp] theorem txGiveUp_port (p : TxEntry → Bool) (s : State) : (txGiveUp p s).port = s.port := rfl

@[simp] theorem frameEnds_pending (echo : Bool) (s : State) : (frameEnds echo s).pending = s.pending := rfl
@[simp] theorem frameEnds_pins (echo : Bool) (s : State) : (frameEnds echo s).pins = s.pins := rfl
@[simp] theorem frameEnds_mem (echo : Bool) (s : State) : (frameEnds echo s).mem = s.mem := rfl
@[simp] theorem frameEnds_startUp (echo : Bool) (s : State) : (frameEnds echo s).startUp = s.startUp := rfl
@[simp] theorem frameEnds_flash (echo : Bool) (s : State) : (frameEnds echo s).flash = s.flash := rfl
@[simp] theorem frameEnds_cat (echo : Bool) (s : State) : (frameEnds echo s).cat = s.cat := rfl
@[simp] theorem frameEnds_notice (echo : Bool) (s : State) : (frameEnds echo s).notice = s.notice := rfl
@[simp] theorem frameEnds_fetch (echo : Bool) (s : State) : (frameEnds echo s).fetch = s.fetch := rfl
@[simp] theorem frameEnds_serve (echo : Bool) (s : State) : (frameEnds echo s).serve = s.serve := rfl
@[simp] theorem frameEnds_port (echo : Bool) (s : State) : (frameEnds echo s).port = s.port := rfl

@[simp] theorem strapPins_pending (x : Straps) (s : State) : (strapPins x s).pending = s.pending := rfl
@[simp] theorem strapPins_mem (x : Straps) (s : State) : (strapPins x s).mem = s.mem := rfl
@[simp] theorem strapPins_startUp (x : Straps) (s : State) : (strapPins x s).startUp = s.startUp := rfl
@[simp] theorem strapPins_flash (x : Straps) (s : State) : (strapPins x s).flash = s.flash := rfl
@[simp] theorem strapPins_cat (x : Straps) (s : State) : (strapPins x s).cat = s.cat := rfl
@[simp] theorem strapPins_line (x : Straps) (s : State) : (strapPins x s).line = s.line := rfl
@[simp] theorem strapPins_notice (x : Straps) (s : State) : (strapPins x s).notice = s.notice := rfl
@[simp] theorem strapPins_fetch (x : Straps) (s : State) : (strapPins x s).fetch = s.fetch := rfl
@[simp] theorem strapPins_serve (x : Straps) (s : State) : (strapPins x s).serve = s.serve := rfl
@[simp] theorem strapPins_port (x : Straps) (s : State) : (strapPins x s).port = s.port := rfl

@[simp] theorem lineLeft_pending (q : List TxEntry) (s : State) : (lineLeft q s).pending = s.pending := rfl
@[simp] theorem lineLeft_pins (q : List TxEntry) (s : State) : (lineLeft q s).pins = s.pins := rfl
@[simp] theorem lineLeft_mem (q : List TxEntry) (s : State) : (lineLeft q s).mem = s.mem := rfl
@[simp] theorem lineLeft_startUp (q : List TxEntry) (s : State) : (lineLeft q s).startUp = s.startUp := rfl
@[simp] theorem lineLeft_flash (q : List TxEntry) (s : State) : (lineLeft q s).flash = s.flash := rfl
@[simp] theorem lineLeft_cat (q : List TxEntry) (s : State) : (lineLeft q s).cat = s.cat := rfl
@[simp] theorem lineLeft_notice (q : List TxEntry) (s : State) : (lineLeft q s).notice = s.notice := rfl
@[simp] theorem lineLeft_fetch (q : List TxEntry) (s : State) : (lineLeft q s).fetch = s.fetch := rfl
@[simp] theorem lineLeft_serve (q : List TxEntry) (s : State) : (lineLeft q s).serve = s.serve := rfl
@[simp] theorem lineLeft_port (q : List TxEntry) (s : State) : (lineLeft q s).port = s.port := rfl

theorem idleAfter_le (count : Nat) (bits : List Bool) (h : count ≤ 10) : idleAfter count bits ≤ 10 := by
  unfold idleAfter
  induction bits generalizing count with
  | nil => exact h
  | cons b bs ih => exact ih _ (by cases b <;> simp <;> omega)

/-- The idle count stops rising at 10 (R69). -/
theorem idleAtEnd_le (count : Nat) (bits : List Bool) (h : count ≤ 10) : idleAtEnd count bits ≤ 10 := by
  unfold idleAtEnd
  split
  · exact idleAfter_le _ _ h
  · exact idleAfter_le _ _ h
  · omega

@[simp] theorem countReceiveError_idleCount (idle : Nat) (echo : Bool) (s : State) :
    (countReceiveError idle echo s).line.idleCount = idle := rfl
@[simp] theorem countReceiveError_pending (idle : Nat) (echo : Bool) (s : State) :
    (countReceiveError idle echo s).pending = s.pending := rfl
@[simp] theorem countReceiveError_pins (idle : Nat) (echo : Bool) (s : State) :
    (countReceiveError idle echo s).pins = s.pins := rfl
@[simp] theorem countReceiveError_mem (idle : Nat) (echo : Bool) (s : State) :
    (countReceiveError idle echo s).mem = s.mem := rfl
@[simp] theorem countReceiveError_startUp (idle : Nat) (echo : Bool) (s : State) :
    (countReceiveError idle echo s).startUp = s.startUp := rfl
@[simp] theorem countReceiveError_flash (idle : Nat) (echo : Bool) (s : State) :
    (countReceiveError idle echo s).flash = s.flash := rfl
@[simp] theorem countReceiveError_cat (idle : Nat) (echo : Bool) (s : State) :
    (countReceiveError idle echo s).cat = s.cat := rfl
@[simp] theorem countReceiveError_notice (idle : Nat) (echo : Bool) (s : State) :
    (countReceiveError idle echo s).notice = s.notice := rfl
@[simp] theorem countReceiveError_fetch (idle : Nat) (echo : Bool) (s : State) :
    (countReceiveError idle echo s).fetch = s.fetch := rfl
@[simp] theorem countReceiveError_serve (idle : Nat) (echo : Bool) (s : State) :
    (countReceiveError idle echo s).serve = s.serve := rfl
@[simp] theorem countReceiveError_port (idle : Nat) (echo : Bool) (s : State) :
    (countReceiveError idle echo s).port = s.port := rfl

@[simp] theorem captureState_pending (s : State) : (captureState s).pending = s.pending := rfl
@[simp] theorem captureState_pins (s : State) : (captureState s).pins = s.pins := rfl
@[simp] theorem captureState_mem (s : State) : (captureState s).mem = s.mem := rfl
@[simp] theorem captureState_startUp (s : State) : (captureState s).startUp = s.startUp := rfl
@[simp] theorem captureState_flash (s : State) : (captureState s).flash = s.flash := rfl
@[simp] theorem captureState_cat (s : State) : (captureState s).cat = s.cat := rfl
@[simp] theorem captureState_line (s : State) : (captureState s).line = s.line := rfl
@[simp] theorem captureState_notice (s : State) : (captureState s).notice = s.notice := rfl
@[simp] theorem captureState_fetch (s : State) : (captureState s).fetch = s.fetch := rfl
@[simp] theorem captureState_serve (s : State) : (captureState s).serve = s.serve := rfl

@[simp] theorem releasePins_pending (s : State) : (releasePins s).pending = s.pending := rfl
@[simp] theorem releasePins_pins (s : State) : (releasePins s).pins = s.pins := rfl
@[simp] theorem releasePins_mem (s : State) : (releasePins s).mem = s.mem := rfl
@[simp] theorem releasePins_startUp (s : State) : (releasePins s).startUp = s.startUp := rfl
@[simp] theorem releasePins_flash (s : State) : (releasePins s).flash = s.flash := rfl
@[simp] theorem releasePins_cat (s : State) : (releasePins s).cat = s.cat := rfl
@[simp] theorem releasePins_line (s : State) : (releasePins s).line = s.line := rfl
@[simp] theorem releasePins_notice (s : State) : (releasePins s).notice = s.notice := rfl
@[simp] theorem releasePins_fetch (s : State) : (releasePins s).fetch = s.fetch := rfl
@[simp] theorem releasePins_serve (s : State) : (releasePins s).serve = s.serve := rfl

@[simp] theorem orphanService_pending (s : State) : (orphanService s).pending = s.pending := rfl
@[simp] theorem orphanService_pins (s : State) : (orphanService s).pins = s.pins := rfl
@[simp] theorem orphanService_mem (s : State) : (orphanService s).mem = s.mem := rfl
@[simp] theorem orphanService_startUp (s : State) : (orphanService s).startUp = s.startUp := rfl
@[simp] theorem orphanService_cat (s : State) : (orphanService s).cat = s.cat := rfl
@[simp] theorem orphanService_line (s : State) : (orphanService s).line = s.line := rfl
@[simp] theorem orphanService_notice (s : State) : (orphanService s).notice = s.notice := rfl
@[simp] theorem orphanService_fetch (s : State) : (orphanService s).fetch = s.fetch := rfl
@[simp] theorem orphanService_serve (s : State) : (orphanService s).serve = s.serve := rfl
@[simp] theorem orphanService_port (s : State) : (orphanService s).port = s.port := rfl

@[simp] theorem freeInFlight_pending (s : State) : (freeInFlight s).pending = s.pending := rfl
@[simp] theorem freeInFlight_pins (s : State) : (freeInFlight s).pins = s.pins := rfl
@[simp] theorem freeInFlight_mem (s : State) : (freeInFlight s).mem = s.mem := rfl
@[simp] theorem freeInFlight_startUp (s : State) : (freeInFlight s).startUp = s.startUp := rfl
@[simp] theorem freeInFlight_flash (s : State) : (freeInFlight s).flash = s.flash := rfl
@[simp] theorem freeInFlight_cat (s : State) : (freeInFlight s).cat = s.cat := rfl
@[simp] theorem freeInFlight_line (s : State) : (freeInFlight s).line = s.line := rfl
@[simp] theorem freeInFlight_notice (s : State) : (freeInFlight s).notice = s.notice := rfl
@[simp] theorem freeInFlight_serve (s : State) : (freeInFlight s).serve = s.serve := rfl
@[simp] theorem freeInFlight_port (s : State) : (freeInFlight s).port = s.port := rfl

@[simp] theorem updateCtx_pending (i : Fin 4) (f : Ctx → Ctx) (s : State) : (updateCtx i f s).pending = s.pending := rfl
@[simp] theorem updateCtx_pins (i : Fin 4) (f : Ctx → Ctx) (s : State) : (updateCtx i f s).pins = s.pins := rfl
@[simp] theorem updateCtx_mem (i : Fin 4) (f : Ctx → Ctx) (s : State) : (updateCtx i f s).mem = s.mem := rfl
@[simp] theorem updateCtx_startUp (i : Fin 4) (f : Ctx → Ctx) (s : State) : (updateCtx i f s).startUp = s.startUp := rfl
@[simp] theorem updateCtx_flash (i : Fin 4) (f : Ctx → Ctx) (s : State) : (updateCtx i f s).flash = s.flash := rfl
@[simp] theorem updateCtx_cat (i : Fin 4) (f : Ctx → Ctx) (s : State) : (updateCtx i f s).cat = s.cat := rfl
@[simp] theorem updateCtx_line (i : Fin 4) (f : Ctx → Ctx) (s : State) : (updateCtx i f s).line = s.line := rfl
@[simp] theorem updateCtx_notice (i : Fin 4) (f : Ctx → Ctx) (s : State) : (updateCtx i f s).notice = s.notice := rfl
@[simp] theorem updateCtx_serve (i : Fin 4) (f : Ctx → Ctx) (s : State) : (updateCtx i f s).serve = s.serve := rfl
@[simp] theorem updateCtx_port (i : Fin 4) (f : Ctx → Ctx) (s : State) : (updateCtx i f s).port = s.port := rfl

@[simp] theorem touchPeer_pending (a : Addr) (s : State) : (touchPeer a s).pending = s.pending := rfl
@[simp] theorem touchPeer_pins (a : Addr) (s : State) : (touchPeer a s).pins = s.pins := rfl
@[simp] theorem touchPeer_mem (a : Addr) (s : State) : (touchPeer a s).mem = s.mem := rfl
@[simp] theorem touchPeer_startUp (a : Addr) (s : State) : (touchPeer a s).startUp = s.startUp := rfl
@[simp] theorem touchPeer_flash (a : Addr) (s : State) : (touchPeer a s).flash = s.flash := rfl
@[simp] theorem touchPeer_cat (a : Addr) (s : State) : (touchPeer a s).cat = s.cat := rfl
@[simp] theorem touchPeer_line (a : Addr) (s : State) : (touchPeer a s).line = s.line := rfl
@[simp] theorem touchPeer_fetch (a : Addr) (s : State) : (touchPeer a s).fetch = s.fetch := rfl
@[simp] theorem touchPeer_serve (a : Addr) (s : State) : (touchPeer a s).serve = s.serve := rfl
@[simp] theorem touchPeer_port (a : Addr) (s : State) : (touchPeer a s).port = s.port := rfl

@[simp] theorem updatePeer_pending (a : Addr) (f : Peer → Peer) (s : State) : (updatePeer a f s).pending = s.pending := rfl
@[simp] theorem updatePeer_pins (a : Addr) (f : Peer → Peer) (s : State) : (updatePeer a f s).pins = s.pins := rfl
@[simp] theorem updatePeer_mem (a : Addr) (f : Peer → Peer) (s : State) : (updatePeer a f s).mem = s.mem := rfl
@[simp] theorem updatePeer_startUp (a : Addr) (f : Peer → Peer) (s : State) : (updatePeer a f s).startUp = s.startUp := rfl
@[simp] theorem updatePeer_flash (a : Addr) (f : Peer → Peer) (s : State) : (updatePeer a f s).flash = s.flash := rfl
@[simp] theorem updatePeer_cat (a : Addr) (f : Peer → Peer) (s : State) : (updatePeer a f s).cat = s.cat := rfl
@[simp] theorem updatePeer_line (a : Addr) (f : Peer → Peer) (s : State) : (updatePeer a f s).line = s.line := rfl
@[simp] theorem updatePeer_fetch (a : Addr) (f : Peer → Peer) (s : State) : (updatePeer a f s).fetch = s.fetch := rfl
@[simp] theorem updatePeer_serve (a : Addr) (f : Peer → Peer) (s : State) : (updatePeer a f s).serve = s.serve := rfl
@[simp] theorem updatePeer_port (a : Addr) (f : Peer → Peer) (s : State) : (updatePeer a f s).port = s.port := rfl

@[simp] theorem updateEntry_pending (k : Key) (b : Block) (f : ServeEntry → ServeEntry) (s : State) : (updateEntry k b f s).pending = s.pending := rfl
@[simp] theorem updateEntry_pins (k : Key) (b : Block) (f : ServeEntry → ServeEntry) (s : State) : (updateEntry k b f s).pins = s.pins := rfl
@[simp] theorem updateEntry_mem (k : Key) (b : Block) (f : ServeEntry → ServeEntry) (s : State) : (updateEntry k b f s).mem = s.mem := rfl
@[simp] theorem updateEntry_startUp (k : Key) (b : Block) (f : ServeEntry → ServeEntry) (s : State) : (updateEntry k b f s).startUp = s.startUp := rfl
@[simp] theorem updateEntry_flash (k : Key) (b : Block) (f : ServeEntry → ServeEntry) (s : State) : (updateEntry k b f s).flash = s.flash := rfl
@[simp] theorem updateEntry_cat (k : Key) (b : Block) (f : ServeEntry → ServeEntry) (s : State) : (updateEntry k b f s).cat = s.cat := rfl
@[simp] theorem updateEntry_line (k : Key) (b : Block) (f : ServeEntry → ServeEntry) (s : State) : (updateEntry k b f s).line = s.line := rfl
@[simp] theorem updateEntry_notice (k : Key) (b : Block) (f : ServeEntry → ServeEntry) (s : State) : (updateEntry k b f s).notice = s.notice := rfl
@[simp] theorem updateEntry_fetch (k : Key) (b : Block) (f : ServeEntry → ServeEntry) (s : State) : (updateEntry k b f s).fetch = s.fetch := rfl
@[simp] theorem updateEntry_port (k : Key) (b : Block) (f : ServeEntry → ServeEntry) (s : State) : (updateEntry k b f s).port = s.port := rfl

@[simp] theorem removeEntry_pending (k : Key) (b : Block) (s : State) : (removeEntry k b s).pending = s.pending := rfl
@[simp] theorem removeEntry_pins (k : Key) (b : Block) (s : State) : (removeEntry k b s).pins = s.pins := rfl
@[simp] theorem removeEntry_mem (k : Key) (b : Block) (s : State) : (removeEntry k b s).mem = s.mem := rfl
@[simp] theorem removeEntry_startUp (k : Key) (b : Block) (s : State) : (removeEntry k b s).startUp = s.startUp := rfl
@[simp] theorem removeEntry_flash (k : Key) (b : Block) (s : State) : (removeEntry k b s).flash = s.flash := rfl
@[simp] theorem removeEntry_cat (k : Key) (b : Block) (s : State) : (removeEntry k b s).cat = s.cat := rfl
@[simp] theorem removeEntry_line (k : Key) (b : Block) (s : State) : (removeEntry k b s).line = s.line := rfl
@[simp] theorem removeEntry_notice (k : Key) (b : Block) (s : State) : (removeEntry k b s).notice = s.notice := rfl
@[simp] theorem removeEntry_fetch (k : Key) (b : Block) (s : State) : (removeEntry k b s).fetch = s.fetch := rfl
@[simp] theorem removeEntry_port (k : Key) (b : Block) (s : State) : (removeEntry k b s).port = s.port := rfl

@[simp] theorem setLink_pending (l : LinkState) (s : State) : (setLink l s).pending = s.pending := rfl
@[simp] theorem setLink_pins (l : LinkState) (s : State) : (setLink l s).pins = s.pins := rfl
@[simp] theorem setLink_mem (l : LinkState) (s : State) : (setLink l s).mem = s.mem := rfl
@[simp] theorem setLink_startUp (l : LinkState) (s : State) : (setLink l s).startUp = s.startUp := rfl
@[simp] theorem setLink_flash (l : LinkState) (s : State) : (setLink l s).flash = s.flash := rfl
@[simp] theorem setLink_cat (l : LinkState) (s : State) : (setLink l s).cat = s.cat := rfl
@[simp] theorem setLink_notice (l : LinkState) (s : State) : (setLink l s).notice = s.notice := rfl
@[simp] theorem setLink_fetch (l : LinkState) (s : State) : (setLink l s).fetch = s.fetch := rfl
@[simp] theorem setLink_serve (l : LinkState) (s : State) : (setLink l s).serve = s.serve := rfl

@[simp] theorem elapse_pending (ms : Nat) (s : State) : (elapse ms s).pending = s.pending := rfl
@[simp] theorem elapse_pins (ms : Nat) (s : State) : (elapse ms s).pins = s.pins := rfl
@[simp] theorem elapse_mem (ms : Nat) (s : State) : (elapse ms s).mem = s.mem := rfl
@[simp] theorem elapse_startUp (ms : Nat) (s : State) : (elapse ms s).startUp = s.startUp := rfl
@[simp] theorem elapse_flash (ms : Nat) (s : State) : (elapse ms s).flash = s.flash := rfl
@[simp] theorem elapse_cat (ms : Nat) (s : State) : (elapse ms s).cat = s.cat := rfl
@[simp] theorem elapse_port (ms : Nat) (s : State) : (elapse ms s).port = s.port := rfl

@[simp] theorem State.withPending_pins (s : State) (q : List Instr) : (s.withPending q).pins = s.pins := rfl
@[simp] theorem State.withPending_mem (s : State) (q : List Instr) : (s.withPending q).mem = s.mem := rfl
@[simp] theorem State.withPending_startUp (s : State) (q : List Instr) : (s.withPending q).startUp = s.startUp := rfl
@[simp] theorem State.withPending_flash (s : State) (q : List Instr) : (s.withPending q).flash = s.flash := rfl
@[simp] theorem State.withPending_cat (s : State) (q : List Instr) : (s.withPending q).cat = s.cat := rfl
@[simp] theorem State.withPending_line (s : State) (q : List Instr) : (s.withPending q).line = s.line := rfl
@[simp] theorem State.withPending_notice (s : State) (q : List Instr) : (s.withPending q).notice = s.notice := rfl
@[simp] theorem State.withPending_fetch (s : State) (q : List Instr) : (s.withPending q).fetch = s.fetch := rfl
@[simp] theorem State.withPending_serve (s : State) (q : List Instr) : (s.withPending q).serve = s.serve := rfl
@[simp] theorem State.withPending_port (s : State) (q : List Instr) : (s.withPending q).port = s.port := rfl

@[simp] theorem setSlot_pending (x : Slot) (r : SlotRecord) (s : State) : (setSlot x r s).pending = s.pending := by cases x <;> rfl
@[simp] theorem setSlot_pins (x : Slot) (r : SlotRecord) (s : State) : (setSlot x r s).pins = s.pins := by cases x <;> rfl
@[simp] theorem setSlot_mem (x : Slot) (r : SlotRecord) (s : State) : (setSlot x r s).mem = s.mem := by cases x <;> rfl
@[simp] theorem setSlot_startUp (x : Slot) (r : SlotRecord) (s : State) : (setSlot x r s).startUp = s.startUp := by cases x <;> rfl
@[simp] theorem setSlot_flash (x : Slot) (r : SlotRecord) (s : State) : (setSlot x r s).flash = s.flash := by cases x <;> rfl
@[simp] theorem setSlot_line (x : Slot) (r : SlotRecord) (s : State) : (setSlot x r s).line = s.line := by cases x <;> rfl
@[simp] theorem setSlot_notice (x : Slot) (r : SlotRecord) (s : State) : (setSlot x r s).notice = s.notice := by cases x <;> rfl
@[simp] theorem setSlot_fetch (x : Slot) (r : SlotRecord) (s : State) : (setSlot x r s).fetch = s.fetch := by cases x <;> rfl
@[simp] theorem setSlot_serve (x : Slot) (r : SlotRecord) (s : State) : (setSlot x r s).serve = s.serve := by cases x <;> rfl
@[simp] theorem setSlot_port (x : Slot) (r : SlotRecord) (s : State) : (setSlot x r s).port = s.port := by cases x <;> rfl

@[simp] theorem setBuf_pending (i : OutBufId) (v : OutBuf) (s : State) : (setBuf i v s).pending = s.pending := by cases i <;> rfl
@[simp] theorem setBuf_pins (i : OutBufId) (v : OutBuf) (s : State) : (setBuf i v s).pins = s.pins := by cases i <;> rfl
@[simp] theorem setBuf_mem (i : OutBufId) (v : OutBuf) (s : State) : (setBuf i v s).mem = s.mem := by cases i <;> rfl
@[simp] theorem setBuf_startUp (i : OutBufId) (v : OutBuf) (s : State) : (setBuf i v s).startUp = s.startUp := by cases i <;> rfl
@[simp] theorem setBuf_flash (i : OutBufId) (v : OutBuf) (s : State) : (setBuf i v s).flash = s.flash := by cases i <;> rfl
@[simp] theorem setBuf_cat (i : OutBufId) (v : OutBuf) (s : State) : (setBuf i v s).cat = s.cat := by cases i <;> rfl
@[simp] theorem setBuf_line (i : OutBufId) (v : OutBuf) (s : State) : (setBuf i v s).line = s.line := by cases i <;> rfl
@[simp] theorem setBuf_notice (i : OutBufId) (v : OutBuf) (s : State) : (setBuf i v s).notice = s.notice := by cases i <;> rfl
@[simp] theorem setBuf_fetch (i : OutBufId) (v : OutBuf) (s : State) : (setBuf i v s).fetch = s.fetch := by cases i <;> rfl
@[simp] theorem setBuf_port (i : OutBufId) (v : OutBuf) (s : State) : (setBuf i v s).port = s.port := by cases i <;> rfl

@[simp] theorem State.withPending_pending (s : State) (q : List Instr) : (s.withPending q).pending = q := rfl
@[simp] theorem answer_state (r : ResultCode) (p : List Byte) (s : State) : (answer r p s).port.state = .answered := rfl
@[simp] theorem answer_answer (r : ResultCode) (p : List Byte) (s : State) :
    (answer r p s).port.answer = some { result := r, payload := p } := rfl
@[simp] theorem answer_command (r : ResultCode) (p : List Byte) (s : State) : (answer r p s).port.command = none := rfl
@[simp] theorem answer_events (r : ResultCode) (p : List Byte) (s : State) :
    (answer r p s).port.events = s.port.events := rfl
@[simp] theorem raise_events (k : EventKind) (d : BitVec 32) (s : State) :
    (raise k d s).port.events = raiseIn k d s.port.events := rfl
@[simp] theorem raise_state (k : EventKind) (d : BitVec 32) (s : State) : (raise k d s).port.state = s.port.state := rfl
@[simp] theorem raise_answer (k : EventKind) (d : BitVec 32) (s : State) : (raise k d s).port.answer = s.port.answer := rfl
@[simp] theorem raise_command (k : EventKind) (d : BitVec 32) (s : State) : (raise k d s).port.command = s.port.command := rfl
@[simp] theorem setCommand_events (c : Command) (s : State) : (setCommand c s).port.events = s.port.events := rfl
@[simp] theorem setCommand_command (c : Command) (s : State) : (setCommand c s).port.command = some c := rfl
@[simp] theorem setLoad_events (l : LoadRecord) (s : State) : (setLoad l s).port.events = s.port.events := rfl
@[simp] theorem setStagingState_stagingState (v : StagingState) (s : State) :
    (setStagingState v s).cat.stagingState = v := rfl
@[simp] theorem setProcedure_procedure (p : Procedure) (s : State) : (setProcedure p s).cat.procedure = p := rfl
@[simp] theorem setTarget_target (t : Option (Key × Addr)) (s : State) : (setTarget t s).cat.target = t := rfl
@[simp] theorem setPeers_peers (ps : List Peer) (s : State) : (setPeers ps s).notice.peers = ps := rfl
@[simp] theorem setServeQueue_queue (q : List ServeEntry) (s : State) : (setServeQueue q s).serve.queue = q := rfl
@[simp] theorem setService_service (v : Service) (s : State) : (setService v s).flash.service = some v := rfl
@[simp] theorem setHold_hold (v : Bool) (s : State) : (setHold v s).fetch.hold = v := rfl
@[simp] theorem setCtx_get (i : Fin 4) (c : Ctx) (s : State) : ctxOf (setCtx i c s) i = c := by simp [ctxOf, setCtx]
@[simp] theorem setSlot_get (x : Slot) (r : SlotRecord) (s : State) : slotRec (setSlot x r s) x = r := by cases x <;> rfl
@[simp] theorem setSlot_other (x : Slot) (r : SlotRecord) (s : State) :
    slotRec (setSlot x r s) x.other = slotRec s x.other := by cases x <;> rfl
@[simp] theorem setBuf_get (i : OutBufId) (v : OutBuf) (s : State) : bufOf (setBuf i v s) i = v := by cases i <;> rfl

end Sys2Proof.Machine
end

