-- ==== Sys2Proof/Laws/Work.lean ====
section
/-! SUPPORT. What an operation can do to the part, said once: every operation but the writes of the array and the pins is a
run of small changes, and each small change names what it may alter and what it keeps. An invariant is then proved over the
small changes alone. -/

namespace Sys2Proof.Machine

/-- The small changes. None alters the array, the pins or the queue of waiting commands. -/
inductive Small : State → State → Prop where
  | raise (k : EventKind) (d : BitVec 32) (s : State) : Small s (raise k d s)
  | port (p : HostPort) (s : State) (h : p.events = s.port.events) : Small s { s with port := p }
  | takeEvents (p : HostPort) (k : Nat) (s : State) (h : p.events = s.port.events.drop k) : Small s { s with port := p }
  | cat (c : Catalogue) (s : State) : Small s { s with cat := c }
  | startUp (u : StartUp) (s : State) (h : u.stage = s.startUp.stage ∨ u.stage = .running) : Small s { s with startUp := u }
  | submit (q : Queue) (j : Job) (s : State) : Small s (submit q j s)
  | pickJob (s : State) : Small s (pickJob s)
  | withdrawJobs (q : Queue) (p : Job → Bool) (s : State) : Small s (withdrawJobs q p s)
  | flash (f : Sequencer) (s : State) (h : f.recordQ = s.flash.recordQ ∧ f.fetchQ = s.flash.fetchQ ∧
      f.serveQ = s.flash.serveQ ∧ f.hostQ = s.flash.hostQ ∧ f.fetchRun = s.flash.fetchRun) : Small s { s with flash := f }
  | txSubmit (f : Frame) (o : Owner) (s : State) : Small s (txSubmit f o s)
  | line (l : LineController) (s : State)
      (hq : (l.queue.map TxEntry.frame).Sublist (s.line.queue.map TxEntry.frame))
      (hc : LineCounts s.line → LineCounts l) (hl : l.link = s.line.link)
      (ht : l.listen ≠ .stopped → s.line.listen ≠ .stopped ∨ s.line.link = .listenOnly) : Small s { s with line := l }
  | relink (l : LineController) (s : State) (hq : l.queue = s.line.queue) (hc : LineCounts s.line → LineCounts l)
      (hr : s.startUp.stage = .running ∨ s.line.link ≠ .offline ∨ s.line.listen ≠ .stopped)
      (ht : l.listen ≠ .stopped → l.link = .listenOnly ∨ s.line.listen ≠ .stopped ∧ s.line.link ≠ .listenOnly) :
      Small s { s with line := l }
  | notice (n : NoticeUnit) (s : State) (h : PeersFit s.notice.peers → PeersFit n.peers) : Small s { s with notice := n }
  | serve (v : ServeEngine) (s : State) (h : ServeFits s.serve → ServeFits v) : Small s { s with serve := v }
  | fetch (f : FetchEngine) (s : State) (h : FetchFits s.fetch → FetchFits f) : Small s { s with fetch := f }
  | deviceReset (s : State) : Small s (deviceReset s.pins s)

/-- A run of small changes. -/
def Work (a s : State) : Prop := Relation.ReflTransGen Small a s

variable {a s : State}

theorem Work.refl (s : State) : Work s s := Relation.ReflTransGen.refl

theorem Work.step {t : State} (h : Work a s) (k : Small s t) : Work a t := Relation.ReflTransGen.tail h k

theorem Work.trans {t : State} (h : Work a s) (k : Work s t) : Work a t := Relation.ReflTransGen.trans h k

/-- An invariant that every small change keeps is kept by a run of them. -/
theorem Work.keeps {P : State → Prop} (hP : ∀ s t, Small s t → P s → P t) (h : Work a s) (ha : P a) : P s := by
  induction h with
  | refl => exact ha
  | tail _ k ih => exact hP _ _ k ih

theorem pickJob_mem (s : State) : (pickJob s).mem = s.mem := by unfold pickJob; split <;> rfl
theorem pickJob_pending (s : State) : (pickJob s).pending = s.pending := by unfold pickJob; split <;> rfl
theorem pickJob_pins (s : State) : (pickJob s).pins = s.pins := by unfold pickJob; split <;> rfl

/-- A small change leaves the array, the pins and the queue of waiting commands. -/
theorem Small.frame {s t : State} (h : Small s t) : t.mem = s.mem ∧ t.pending = s.pending ∧ t.pins = s.pins := by
  cases h <;> first
    | exact ⟨rfl, rfl, rfl⟩
    | exact ⟨pickJob_mem _, pickJob_pending _, pickJob_pins _⟩
    | (unfold Sys2Proof.Machine.submit; dsimp only; split_ifs <;>
        first | exact ⟨rfl, rfl, rfl⟩ | exact ⟨pickJob_mem _, pickJob_pending _, pickJob_pins _⟩)
    | (unfold Sys2Proof.Machine.txSubmit; split_ifs <;> exact ⟨rfl, rfl, rfl⟩)

/-- A run of small changes leaves the array, the pins and the queue of waiting commands. -/
theorem Work.frame (h : Work a s) : s.mem = a.mem ∧ s.pending = a.pending ∧ s.pins = a.pins := by
  induction h with
  | refl => exact ⟨rfl, rfl, rfl⟩
  | tail _ k ih =>
    obtain ⟨h1, h2, h3⟩ := k.frame
    exact ⟨h1.trans ih.1, h2.trans ih.2.1, h3.trans ih.2.2⟩

/-! ## Fetch engine -/

theorem sum_map_set {α : Type} (f : α → Nat) (l : List α) (i : Nat) (c : α) (h : i < l.length) :
    ((l.set i c).map f).sum + f l[i] = (l.map f).sum + f c := by
  induction l generalizing i with
  | nil => simp at h
  | cons x xs ih =>
    cases i with
    | zero => simp; omega
    | succ i =>
      have := ih i (by simpa using h)
      simp at this ⊢; omega

/-- A fetch engine stays in its bounds when one context changes and the pool with it. -/
theorem FetchFits.setCtx {f : FetchEngine} (h : FetchFits f) (i : Fin 4) (c : Ctx) (free inFlight : Nat)
    (hp : free + c.buffers.length + inFlight = f.poolFree + (f.ctxs[i]).buffers.length + f.poolInFlight)
    (hi : c.state = .idle → c.buffers = []) (ht : c.tries ≤ 5) :
    FetchFits { f with ctxs := f.ctxs.set i c, poolFree := free, poolInFlight := inFlight } := by
  obtain ⟨h1, h2, h3, h4, h5⟩ := h
  have hl : i.val < f.ctxs.toList.length := by simp
  have hs := sum_map_set (fun c : Ctx => c.buffers.length) f.ctxs.toList i c hl
  have hg : f.ctxs.toList[i.val]'hl = f.ctxs[i] := by simp
  rw [hg] at hs
  refine ⟨?_, ?_, ?_, h4, h5⟩
  · simp only [Vector.toList_set] at *; omega
  · intro d hd
    simp only [Vector.toList_set] at hd
    rcases List.mem_or_eq_of_mem_set hd with hd | hd
    · exact h2 d hd
    · subst hd; exact hi
  · intro d hd
    simp only [Vector.toList_set] at hd
    rcases List.mem_or_eq_of_mem_set hd with hd | hd
    · exact h3 d hd
    · subst hd; exact ht

theorem FetchFits.ctx {f : FetchEngine} (h : FetchFits f) (i : Fin 4) :
    ((f.ctxs[i]).state = .idle → (f.ctxs[i]).buffers = []) ∧ (f.ctxs[i]).tries ≤ 5 := by
  have hm : f.ctxs[i] ∈ f.ctxs.toList := by simp
  exact ⟨h.2.1 _ hm, h.2.2.1 _ hm⟩

end Sys2Proof.Machine
end

