-- ==== Sys2Proof/Laws/WorkOps.lean ====
section
/-! SUPPORT. Every shared operation is a run of small changes: one lemma for each. -/

namespace Sys2Proof.Machine

variable {a s : State}


/-! ## Named updates -/

theorem Work.op_raise (h : Work a s) {k : EventKind} {d : BitVec 32} : Work a (raise k d s) := h.step (.raise ..)
theorem Work.op_answer (h : Work a s) {r : ResultCode} {p : List Byte} : Work a (answer r p s) := h.step (.port _ _ rfl)
theorem Work.op_setCommand (h : Work a s) {c : Command} : Work a (setCommand c s) := h.step (.port _ _ rfl)
theorem Work.op_setLoad (h : Work a s) {l : LoadRecord} : Work a (setLoad l s) := h.step (.port _ _ rfl)
theorem Work.op_captureState (h : Work a s) : Work a (captureState s) := h.step (.port _ _ rfl)
theorem Work.op_releasePins (h : Work a s) : Work a (releasePins s) := h.step (.port _ _ rfl)
theorem Work.op_setSlot (h : Work a s) {x : Slot} {r : SlotRecord} : Work a (setSlot x r s) := by
  cases x <;> exact h.step (.cat _ _)
theorem Work.op_setStagingState (h : Work a s) {v : StagingState} : Work a (setStagingState v s) := h.step (.cat _ _)
theorem Work.op_setProcedure (h : Work a s) {p : Procedure} : Work a (setProcedure p s) := h.step (.cat _ _)
theorem Work.op_setTarget (h : Work a s) {t : Option (Key × Addr)} : Work a (setTarget t s) := h.step (.cat _ _)
theorem Work.op_setRebuild (h : Work a s) {r : Rebuild} : Work a (setRebuild r s) := h.step (.startUp _ _ (.inl rfl))
theorem Work.op_setService (h : Work a s) {v : Service} : Work a (setService v s) :=
  h.step (.flash _ _ ⟨rfl, rfl, rfl, rfl, rfl⟩)
theorem Work.op_orphanService (h : Work a s) : Work a (orphanService s) := h.step (.flash _ _ ⟨rfl, rfl, rfl, rfl, rfl⟩)
theorem Work.op_submit (h : Work a s) {q : Queue} {j : Job} : Work a (submit q j s) := h.step (.submit ..)
theorem Work.op_pickJob (h : Work a s) : Work a (pickJob s) := h.step (.pickJob _)
theorem Work.op_withdrawJobs (h : Work a s) {q : Queue} {p : Job → Bool} : Work a (withdrawJobs q p s) :=
  h.step (.withdrawJobs ..)
theorem Work.op_txSubmit (h : Work a s) {f : Frame} {o : Owner} : Work a (txSubmit f o s) := h.step (.txSubmit ..)
theorem Work.op_deviceReset (h : Work a s) : Work a (deviceReset s.pins s) := h.step (.deviceReset _)

theorem Work.op_txWithdraw (h : Work a s) {p : TxEntry → Bool} : Work a (txWithdraw p s) :=
  h.step (.line _ _ (List.filter_sublist.map _) id rfl Or.inl)

theorem Work.op_txGiveUp (h : Work a s) {p : TxEntry → Bool} : Work a (txGiveUp p s) := by
  refine h.op_txWithdraw.step (.line _ _ ?_ id rfl Or.inl)
  rw [List.map_map]
  rw [List.map_congr_left (g := TxEntry.frame) (fun e _ => by simp only [Function.comp]; split <;> rfl)]

/-- The queue alone changes, to a sublist of its frames. -/
theorem Work.op_lineQueue (h : Work a s) {q : List TxEntry} {n : Nat}
    (hq : (q.map TxEntry.frame).Sublist (s.line.queue.map TxEntry.frame)) :
    Work a { s with line := { s.line with idleCount := n, queue := q } } := h.step (.line _ _ hq id rfl Or.inl)

theorem Work.op_lineLeft (h : Work a s) {q : List TxEntry}
    (hq : (q.map TxEntry.frame).Sublist (s.line.queue.map TxEntry.frame)) : Work a (lineLeft q s) := h.op_lineQueue hq

theorem Work.op_frameEnds (h : Work a s) {echo : Bool} : Work a (frameEnds echo s) :=
  h.step (.line _ _ (List.Sublist.refl _) id rfl Or.inl)

theorem Work.op_countReceiveError (h : Work a s) {idle : Nat} {echo : Bool} : Work a (countReceiveError idle echo s) :=
  h.op_frameEnds.step (.line _ _ (List.Sublist.refl _) (fun c => ⟨c.1, c.2.1, Nat.min_le_left _ _, c.2.2.2⟩) rfl Or.inl)

/-! ## Peer table -/

theorem PeersFit.mapAge {ps : List Peer} (h : PeersFit ps) (f : Peer → Peer) (ha : ∀ p, (f p).addr = p.addr)
    (hl : ∀ p, (f p).laterFrames = p.laterFrames)
    (hf : ∀ p, p.heard ≤ 6000 ∧ p.tally ≤ 3 ∧ p.asked ≤ 65535 → (f p).heard ≤ 6000 ∧ (f p).tally ≤ 3 ∧ (f p).asked ≤ 65535) :
    PeersFit (ps.map f) := by
  refine ⟨by simpa using h.1, ?_, ?_, ?_⟩
  · rw [List.map_map, show (Peer.addr ∘ f) = Peer.addr from funext ha]; exact h.2.1
  · rw [List.map_map, show (Peer.laterFrames ∘ f) = Peer.laterFrames from funext hl]; exact h.2.2.1
  · intro p hp
    obtain ⟨q, hq, rfl⟩ := List.mem_map.mp hp
    exact hf q (h.2.2.2 q hq)

theorem PeersFit.filter {ps : List Peer} (h : PeersFit ps) (p : Peer → Bool) : PeersFit (ps.filter p) :=
  ⟨le_trans (List.length_filter_le _ _) h.1, h.2.1.sublist (List.filter_sublist.map _),
    h.2.2.1.sublist (List.filter_sublist.map _), fun q hq => h.2.2.2 q (List.mem_filter.mp hq).1⟩

theorem Work.op_setPeers (h : Work a s) {ps : List Peer} (hp : PeersFit s.notice.peers → PeersFit ps) :
    Work a (setPeers ps s) := h.step (.notice _ _ hp)

theorem Work.op_updatePeer (h : Work a s) {x : Addr} {f : Peer → Peer} (ha : ∀ p, (f p).addr = p.addr)
    (hl : ∀ p, (f p).laterFrames = p.laterFrames)
    (hf : ∀ p, p.heard ≤ 6000 ∧ p.tally ≤ 3 ∧ p.asked ≤ 65535 → (f p).heard ≤ 6000 ∧ (f p).tally ≤ 3 ∧ (f p).asked ≤ 65535) :
    Work a (updatePeer x f s) := by
  refine h.op_setPeers (fun hp => hp.mapAge _ (fun p => ?_) (fun p => ?_) (fun p q => ?_))
  · split <;> simp [ha]
  · split <;> simp [hl]
  · split
    · exact hf p q
    · exact q

theorem Work.op_addTally (h : Work a s) {x : Addr} : Work a (addTally x s) := by
  unfold Machine.addTally
  split
  · exact h
  · exact h.op_updatePeer (fun _ => rfl) (fun _ => rfl) (fun _ q => ⟨q.1, Nat.min_le_left _ _, q.2.2⟩)

theorem Work.op_markAsked (h : Work a s) {x : Addr} : Work a (markAsked x s) := by
  unfold Machine.markAsked
  split
  · exact h
  · exact h.op_updatePeer (fun _ => rfl) (fun _ => rfl) (fun _ q => ⟨q.1, q.2.1, Nat.zero_le _⟩)

theorem Work.op_refreshPeer (h : Work a s) {x : Addr} {n : NoticeFrame} : Work a (refreshPeer x n s) :=
  h.op_updatePeer (fun _ => rfl) (fun _ => rfl) (fun _ q => ⟨q.1, Nat.zero_le _, q.2.2⟩)

theorem evictOldest_sublist (ps : List Peer) : (evictOldest ps).Sublist ps := List.eraseP_sublist

/-- A table with an entry has one that no entry was last heard before. -/
theorem exists_oldest (ps : List Peer) (h : ps ≠ []) : ∃ p ∈ ps, ∀ q ∈ ps, heardBefore q p = false := by
  simp only [heardBefore, Bool.or_eq_false_iff, Bool.and_eq_false_iff, decide_eq_false_iff_not]
  induction ps with
  | nil => exact absurd rfl h
  | cons x xs ih =>
    by_cases hx : xs = []
    · exact ⟨x, by simp, by simp [hx]⟩
    · obtain ⟨p, hp, hq⟩ := ih hx
      by_cases hc : p.heard < x.heard ∨ p.heard = x.heard ∧ p.laterFrames < x.laterFrames
      · refine ⟨x, by simp, fun q hm => ?_⟩
        rcases List.mem_cons.mp hm with rfl | hm
        · omega
        · have := hq q hm; omega
      · refine ⟨p, List.mem_cons_of_mem _ hp, fun q hm => ?_⟩
        rcases List.mem_cons.mp hm with rfl | hm
        · omega
        · exact hq q hm

theorem length_evictOldest (ps : List Peer) (h : ps ≠ []) : (evictOldest ps).length = ps.length - 1 := by
  obtain ⟨p, hp, e⟩ := exists_oldest ps h
  unfold evictOldest
  rw [List.length_eraseP_of_mem hp (by simpa using e)]

/-- A known address touched: its entry's count starts again and every other one rises, so no two come to be equal. -/
theorem nodup_laterFrames_touch {ps : List Peer} (ha : (ps.map Peer.addr).Nodup) (hl : (ps.map Peer.laterFrames).Nodup)
    (x : Addr) :
    ((ps.map (fun p => if p.addr = x then { p with heard := 0, laterFrames := 0 } else p.countFrame)).map
      Peer.laterFrames).Nodup := by
  rw [List.map_map]
  simp only [List.Nodup, List.pairwise_map] at *
  refine (ha.and hl).imp fun {p q} ⟨h1, h2⟩ => ?_
  simp only [Function.comp, Peer.countFrame]
  split <;> split <;> simp_all

theorem nodup_laterFrames_fresh {ps : List Peer} (hl : (ps.map Peer.laterFrames).Nodup) (x : Addr) :
    ((ps.map Peer.countFrame ++ [Peer.fresh x]).map Peer.laterFrames).Nodup := by
  rw [List.map_append, List.nodup_append, List.map_map]
  refine ⟨?_, by simp, by simp [Peer.fresh, Peer.countFrame]⟩
  simp only [List.Nodup, List.pairwise_map] at *
  exact hl.imp fun h => by simpa [Peer.countFrame] using h

theorem PeersFit.touched {ps : List Peer} (h : PeersFit ps) (x : Addr) : PeersFit (touched x ps) := by
  unfold Machine.touched
  split
  · refine ⟨by simpa using h.1, ?_, nodup_laterFrames_touch h.2.1 h.2.2.1 x, ?_⟩
    · rw [List.map_map, show (Peer.addr ∘ _) = Peer.addr from funext fun p => by simp only [Function.comp]; split <;> rfl]
      exact h.2.1
    · intro p hp
      obtain ⟨q, hq, rfl⟩ := List.mem_map.mp hp
      have := h.2.2.2 q hq
      split
      · exact ⟨Nat.zero_le _, this.2⟩
      · exact this
  · next hx =>
    have hx' : ∀ p ∈ ps, p.addr ≠ x := by
      intro p hp e; exact hx (List.any_eq_true.mpr ⟨p, hp, by simp [e]⟩)
    have main : ∀ l : List Peer, l.Sublist ps → l.length ≤ 23 → PeersFit (l.map Peer.countFrame ++ [Peer.fresh x]) := by
      intro l hl hn
      refine ⟨by simp; omega, ?_, nodup_laterFrames_fresh (h.2.2.1.sublist (hl.map _)) x, ?_⟩
      · rw [List.map_append, List.nodup_append, List.map_map, show (Peer.addr ∘ Peer.countFrame) = Peer.addr from rfl]
        refine ⟨h.2.1.sublist (hl.map _), by simp, ?_⟩
        intro b hb c hc e
        simp [Peer.fresh] at hc
        obtain ⟨p, hp, rfl⟩ := List.mem_map.mp hb
        exact hx' p (hl.subset hp) (e.trans hc)
      · intro p hp
        rcases List.mem_append.mp hp with hp | hp
        · obtain ⟨q, hq, rfl⟩ := List.mem_map.mp hp
          exact h.2.2.2 q (hl.subset hq)
        · simp at hp; subst hp; simp [Peer.fresh]
    split
    · next hfull =>
      have hne : ps ≠ [] := by intro e; rw [e] at hfull; simp at hfull
      exact main _ (evictOldest_sublist ps) (by have := length_evictOldest ps hne; have := h.1; omega)
    · exact main _ (List.Sublist.refl _) (by omega)

theorem Work.op_touchPeer (h : Work a s) {x : Addr} : Work a (touchPeer x s) := h.op_setPeers (fun hp => hp.touched x)

/-- A change of the notice unit's timers and flags. -/
theorem Work.op_noticeTimers (h : Work a s) {n : NoticeUnit} (hp : n.peers = s.notice.peers) :
    Work a { s with notice := n } := h.step (.notice _ _ (by rw [hp]; exact id))

/-! ## Fetch contexts -/

/-- A context changes but keeps its buffers. -/
theorem Work.op_setCtx (h : Work a s) {i : Fin 4} {c : Ctx} (hb : c.buffers = (ctxOf s i).buffers)
    (hi : c.state = .idle → (ctxOf s i).state = .idle) (ht : c.tries ≤ 5 ∨ c.tries = (ctxOf s i).tries) :
    Work a (setCtx i c s) := by
  refine h.step (.fetch _ _ (fun hf => ?_))
  have hc := FetchFits.ctx hf i
  refine FetchFits.setCtx hf i c _ _ (by rw [hb]; rfl) (fun e => ?_) ?_
  · rw [hb]; exact hc.1 (hi e)
  · rcases ht with ht | ht
    · exact ht
    · rw [ht]; exact hc.2

theorem Work.op_updateCtx (h : Work a s) {i : Fin 4} {f : Ctx → Ctx} (hb : ∀ c, (f c).buffers = c.buffers)
    (hi : ∀ c, (f c).state = .idle → c.state = .idle) (ht : ∀ c, (f c).tries = c.tries) : Work a (updateCtx i f s) :=
  h.op_setCtx (hb _) (hi _) (.inr (ht _))

/-- An idle context is opened: it holds no buffer before or after. -/
theorem Work.op_openCtx (h : Work a s) {i : Fin 4} {c : Ctx} (hb : c.buffers = []) (hi : (ctxOf s i).state = .idle)
    (ht : c.tries ≤ 5) : Work a (Machine.setCtx i c s) := by
  refine h.step (.fetch _ _ (fun hf => ?_))
  have hc := (FetchFits.ctx hf i).1 hi
  exact FetchFits.setCtx hf i c _ _ (by rw [hb, hc]) (fun _ => hb) ht

/-! ## Serve queue -/

theorem Work.op_setServeQueue (h : Work a s) {q : List ServeEntry} (hq : q.length ≤ s.serve.queue.length) :
    Work a (setServeQueue q s) := h.step (.serve _ _ (fun v => ⟨le_trans hq v.1, v.2⟩))

theorem Work.op_updateEntry (h : Work a s) {k : Key} {b : Block} {f : ServeEntry → ServeEntry} :
    Work a (Machine.updateEntry k b f s) := h.op_setServeQueue (by simp)

theorem Work.op_removeEntry (h : Work a s) {k : Key} {b : Block} : Work a (removeEntry k b s) :=
  h.op_setServeQueue (List.length_filter_le _ _)

theorem Work.op_setBuf (h : Work a s) {i : OutBufId} {v : OutBuf} : Work a (setBuf i v s) := by
  cases i <;> exact h.step (.serve _ _ id)

/-! ## Folds -/

theorem Work.op_foldl {α : Type} {f : State → α → State} (hf : ∀ (t : State) (x : α), Work t (f t x)) (h : Work a s)
    (l : List α) : Work a (l.foldl f s) := by
  induction l generalizing s with
  | nil => exact h
  | cons x xs ih => exact ih (h.trans (hf s x))

/-! ## Shared operations -/

theorem Work.op_blockEvent (h : Work a s) {e : BlockEvent} {b : Block} : Work a (Machine.blockEvent e b s) := h.op_setSlot

theorem Work.op_pumpWork (h : Work a s) {n : Nat} : Work a (Machine.pumpWork n s) := by
  induction n generalizing s with
  | zero => exact h
  | succ n ih =>
    unfold Machine.pumpWork
    split
    · exact h
    · split
      · exact ih (Work.op_submit (h.step (.cat _ _)))
      · exact h

theorem Work.op_addWork (h : Work a s) {j : Job} : Work a (Machine.addWork j s) := Work.op_pumpWork (h.step (.cat _ _))

theorem Work.op_endService (h : Work a s) : Work a (Machine.endService s) := h.op_pickJob.op_pumpWork

theorem Work.op_elapse (h : Work a s) {ms : Nat} : Work a (Machine.elapse ms s) := by
  let s1 : State := { s with line :=
    { s.line with joinLeft := s.line.joinLeft.map (· - ms), listen := s.line.listen.elapse ms } }
  have h1 : Work a s1 := h.step (.line _ _ (List.Sublist.refl _) id rfl (fun e => by
    refine .inl (fun e' => e ?_)
    show s.line.listen.elapse ms = .stopped
    rw [e']; rfl))
  let s2 : State := { s1 with notice := { s.notice with
      peers := s.notice.peers.map (Peer.elapse ms)
      spacing := s.notice.spacing.map (fun t => min 2000 (t + ms))
      periodicLeft := s.notice.periodicLeft.map (· - ms) } }
  have h2 : Work a s2 := h1.step (.notice _ _ (fun hp => hp.mapAge _ (fun _ => rfl) (fun _ => rfl)
    (fun _ q => ⟨Nat.min_le_left _ _, q.2.1, Nat.min_le_left _ _⟩)))
  let s3 : State := { s2 with fetch := { s.fetch with
      ctxs := mapVec (Ctx.elapse ms) s.fetch.ctxs
      deferral := s.fetch.deferral.map (fun d => { d with left := d.left - ms }) } }
  have h3 : Work a s3 := by
    refine h2.step (.fetch _ _ (fun hf => ?_))
    have e : (mapVec (Ctx.elapse ms) s.fetch.ctxs).toList = s.fetch.ctxs.toList.map (Ctx.elapse ms) := by
      simp [mapVec]
    obtain ⟨f1, f2, f3, f4, f5⟩ := hf
    refine ⟨?_, ?_, ?_, f4, by simpa using f5⟩
    · show _ + ((mapVec (Ctx.elapse ms) s.fetch.ctxs).toList.map _).sum + _ = 24
      rw [e, List.map_map]; exact f1
    · show ∀ c ∈ (mapVec (Ctx.elapse ms) s.fetch.ctxs).toList, _
      rw [e]; intro c hc
      obtain ⟨d, hd, rfl⟩ := List.mem_map.mp hc
      exact f2 d hd
    · show ∀ c ∈ (mapVec (Ctx.elapse ms) s.fetch.ctxs).toList, _
      rw [e]; intro c hc
      obtain ⟨d, hd, rfl⟩ := List.mem_map.mp hc
      exact f3 d hd
  exact h3.step (.serve _ _ (fun v => ⟨by simpa using v.1, v.2⟩))

theorem Work.op_submitNotice (h : Work a s) : Work a (Machine.submitNotice s) := by
  unfold Machine.submitNotice
  dsimp only
  split
  · exact Work.op_noticeTimers h.op_txSubmit rfl
  · exact Work.op_noticeTimers h rfl
  · exact h

theorem Work.op_submitIfDifferent (h : Work a s) : Work a (Machine.submitIfDifferent s) := by
  unfold Machine.submitIfDifferent
  split
  · exact Work.op_noticeTimers h rfl
  · exact h.op_submitNotice

theorem Work.op_noticeChanged (h : Work a s) : Work a (Machine.noticeChanged s) := by
  unfold Machine.noticeChanged
  split
  · exact Work.op_noticeTimers h rfl
  · split
    · split
      · exact h
      · exact h.op_submitNotice
    · exact Work.op_noticeTimers h rfl
  · exact h

theorem Work.op_noticeWatch (h : Work a s) {b : State} : Work a (Machine.noticeWatch b s) := by
  unfold Machine.noticeWatch
  split
  · exact h
  · exact h.op_noticeChanged

theorem Work.op_submitOwed (h : Work a s) : Work a (Machine.submitOwed s) := by
  unfold Machine.submitOwed
  split
  · exact h.op_submitNotice
  · exact h

theorem Work.op_offerNext (h : Work a s) : Work a (Machine.offerNext s) := by
  unfold Machine.offerNext
  split
  · exact h
  · next e es hq =>
    split
    · exact h
    · split
      · refine Work.op_setServeQueue h.op_txSubmit ?_
        rw [show (Machine.txSubmit (.offer e.key e.block e.mask) .serveOffer s).serve = s.serve by
          unfold Machine.txSubmit; split <;> rfl, hq]
        simp
      · exact h

theorem Work.op_reoffer (h : Work a s) {k : Key} {b : Block} {mask : Mask} : Work a (Machine.reoffer k b mask s) := by
  unfold Machine.reoffer
  dsimp only
  repeat' with_reducible first
    | exact h
    | exact Work.refl _
    | refine Work.op_txGiveUp ?_
    | refine Work.op_txWithdraw ?_
    | refine Work.op_updateEntry ?_
    | refine Work.op_txSubmit ?_
    | split

theorem Work.op_cancelBuffer (h : Work a s) {k : Key} {b : Block} {i : OutBufId} : Work a (Machine.cancelBuffer k b i s) := by
  unfold Machine.cancelBuffer
  repeat' with_reducible first
    | exact h
    | exact Work.refl _
    | refine Work.op_withdrawJobs ?_
    | refine Work.op_txGiveUp ?_
    | refine Work.op_txWithdraw ?_
    | refine Work.op_setBuf ?_
    | split

theorem Work.op_cancelEntry (h : Work a s) {k : Key} {b : Block} : Work a (Machine.cancelEntry k b s) := by
  unfold Machine.cancelEntry
  repeat' with_reducible first
    | exact h
    | exact Work.refl _
    | refine Work.op_removeEntry ?_
    | refine Work.op_txGiveUp ?_
    | refine Work.op_txWithdraw ?_
    | refine Work.op_offerNext ?_
    | refine Work.op_cancelBuffer ?_
    | split

theorem Work.op_cancelEntries (h : Work a s) {p : ServeEntry → Bool} : Work a (Machine.cancelEntries p s) :=
  Work.op_foldl (fun t _ => (Work.refl t).op_cancelEntry) h _

theorem Work.op_cancelKey (h : Work a s) {k : Option Key} : Work a (Machine.cancelKey k s) := by
  unfold Machine.cancelKey
  repeat' with_reducible first
    | exact h
    | exact Work.refl _
    | refine Work.op_cancelEntries ?_
    | split

theorem Work.op_fillBuffer (h : Work a s) : Work a (Machine.fillBuffer s) := by
  unfold Machine.fillBuffer
  dsimp only
  repeat' with_reducible first
    | exact h
    | exact Work.refl _
    | refine Work.op_submit ?_
    | refine Work.op_updateEntry ?_
    | refine Work.op_setBuf ?_
    | refine Work.op_cancelEntry ?_
    | split

theorem Work.op_endServe (h : Work a s) : Work a (Machine.endServe s) := by
  unfold Machine.endServe
  repeat' with_reducible first
    | exact h
    | exact Work.refl _
    | refine Work.op_removeEntry ?_
    | refine Work.op_offerNext ?_
    | split

theorem Work.op_serveAdvance (h : Work a s) : Work a (Machine.serveAdvance s) := by
  unfold Machine.serveAdvance
  repeat' with_reducible first
    | exact h
    | exact Work.refl _
    | refine Work.op_fillBuffer ?_
    | refine Work.op_endServe ?_
    | split

theorem Work.op_startSending (h : Work a s) {k : Key} {b : Block} : Work a (Machine.startSending k b s) := by
  unfold Machine.startSending
  repeat' with_reducible first
    | exact h
    | exact Work.refl _
    | refine Work.op_updateEntry ?_
    | refine Work.op_serveAdvance ?_
    | split

theorem Work.op_offerReport (h : Work a s) {sent : Bool} {k : Key} {b : Block} : Work a (Machine.offerReport sent k b s) := by
  unfold Machine.offerReport
  repeat' with_reducible first
    | exact h
    | exact Work.refl _
    | refine Work.op_removeEntry ?_
    | refine Work.op_offerNext ?_
    | refine Work.op_startSending ?_
    | split

theorem Work.op_segmentReport (h : Work a s) {sent : Bool} {i : OutBufId} : Work a (Machine.segmentReport sent i s) := by
  unfold Machine.segmentReport
  refine Work.op_serveAdvance ?_
  split
  · exact Work.step h.op_setBuf (.serve _ _ (fun v => ⟨v.1, Nat.min_le_left _ _, v.2.2⟩))
  · exact h.op_setBuf

theorem Work.op_readResult (h : Work a s) {i : OutBufId} {data : Option (List Byte)} : Work a (Machine.readResult i data s) := by
  unfold Machine.readResult
  repeat' with_reducible first
    | exact h
    | exact Work.refl _
    | refine Work.op_txSubmit ?_
    | refine Work.op_setBuf ?_
    | refine Work.op_serveAdvance ?_
    | split

theorem Work.op_enterOffering (h : Work a s) {k : Key} {b : Block} : Work a (Machine.enterOffering k b s) := by
  unfold Machine.enterOffering
  repeat' with_reducible first
    | exact h
    | exact Work.refl _
    | refine Work.op_updateEntry ?_
    | refine Work.op_offerNext ?_
    | split

theorem Work.op_mergeAsk (h : Work a s) {e : ServeEntry} {mask : Mask} : Work a (Machine.mergeAsk e mask s) := by
  unfold Machine.mergeAsk
  dsimp only
  repeat' with_reducible first
    | exact h
    | exact Work.refl _
    | refine Work.op_updateEntry ?_
    | refine Work.op_reoffer ?_
    | split

theorem Work.op_createEntry (h : Work a s) {k : Key} {b : Block} {mask : Mask} : Work a (Machine.createEntry k b mask s) := by
  unfold Machine.createEntry
  split
  · exact h.step (.serve _ _ (fun v => ⟨v.1, v.2.1, Nat.min_le_left _ _⟩))
  · next hn =>
    have ht : Work a (setServeQueue (s.serve.queue ++ [newEntry k b mask (serveDelay s)]) s) :=
      h.step (.serve _ _ (fun v => ⟨by simp; omega, v.2⟩))
    dsimp only
    split
    · exact ht.op_enterOffering
    · exact ht

theorem Work.op_serveAsk (h : Work a s) {target : Addr} {k : Key} {b : Block} {mask : Mask} : Work a (Machine.serveAsk target k b mask s) := by
  unfold Machine.serveAsk
  repeat' with_reducible first
    | exact h
    | exact Work.refl _
    | refine Work.op_mergeAsk ?_
    | refine Work.op_createEntry ?_
    | split

theorem Work.op_suppress (h : Work a s) {k : Key} {b : Block} {mask : Mask} : Work a (Machine.suppress k b mask s) := by
  unfold Machine.suppress
  dsimp only
  repeat' with_reducible first
    | exact h
    | exact Work.refl _
    | refine Work.op_removeEntry ?_
    | refine Work.op_txGiveUp ?_
    | refine Work.op_txWithdraw ?_
    | refine Work.op_updateEntry ?_
    | refine Work.op_offerNext ?_
    | refine Work.op_reoffer ?_
    | split

theorem Work.op_submitAsk (h : Work a s) {i : Fin 4} : Work a (Machine.submitAsk i s) := by
  unfold Machine.submitAsk
  dsimp only
  have e : ctxOf (Machine.txSubmit (.ask (askTarget s (ctxOf s i)) (ctxOf s i).key (ctxOf s i).block (ctxOf s i).wanted)
      (.fetch i) s) i = ctxOf s i := by unfold Machine.txSubmit; split <;> rfl
  split
  · exact Work.op_setCtx h.op_txSubmit (by rw [e]) (by rw [e]; exact id) (.inr (by rw [e]))
  · exact h.op_setCtx rfl id (.inr rfl)

theorem Work.op_submitHeld (h : Work a s) : Work a (Machine.submitHeld s) := by
  refine Work.op_foldl (fun t i => ?_) h _
  split
  · exact (Work.refl t).op_submitAsk
  · exact Work.refl t

theorem Work.op_releaseCtx (h : Work a s) {i : Fin 4} : Work a (Machine.releaseCtx i s) := by
  unfold Machine.releaseCtx
  extract_lets c taken held t u
  have ho : Work a (if taken then Machine.orphanService s else s) := by
    split
    · exact h.op_orphanService
    · exact h
  have ht : Work a t := ho.op_withdrawJobs.op_txGiveUp
  have ef : t.fetch = s.fetch := by
    show (if taken then Machine.orphanService s else s).fetch = s.fetch
    split <;> rfl
  have hh : held ≤ c.buffers.length := by
    show (if _ then _ else _) ≤ _
    split
    · exact Nat.min_le_right _ _
    · exact Nat.zero_le _
  refine Work.step ht (.fetch _ _ (fun hf => ?_))
  refine FetchFits.setCtx hf i Ctx.cleared _ _ ?_ (fun _ => rfl) (by decide)
  show t.fetch.poolFree + (c.buffers.length - held) + 0 + (t.fetch.poolInFlight + held) =
    t.fetch.poolFree + (t.fetch.ctxs[i]).buffers.length + t.fetch.poolInFlight
  rw [show (t.fetch.ctxs[i]).buffers = c.buffers by rw [ef]; rfl]
  omega

theorem Work.op_deferBlock (h : Work a s) {i : Fin 4} : Work a (Machine.deferBlock i s) := by
  unfold Machine.deferBlock
  extract_lets b t
  have ht : Work a t := h.op_blockEvent.op_releaseCtx
  refine Work.op_raise ?_
  refine Work.step ht (.fetch { t.fetch with deferral := deferralAdd t.fetch.deferral b } t
    (fun hf => ⟨hf.1, hf.2.1, hf.2.2.1, hf.2.2.2.1, ?_⟩))
  show (deferralAdd t.fetch.deferral b).length ≤ 8
  have := hf.2.2.2.2
  unfold deferralAdd
  split <;> simp <;> omega

theorem Work.op_enterAsking (h : Work a s) {i : Fin 4} : Work a (Machine.enterAsking i s) := by
  unfold Machine.enterAsking
  extract_lets c
  split
  · exact h.op_deferBlock
  · next hn =>
    have ht : Work a (Machine.setCtx i { c with
        state := .asking, tries := c.tries + 1, wanted := ~~~ c.programmed, endIndex := none, askQueued := false,
        claimLeft := 0, silenceLeft := 0 } s) := by
      refine Work.op_setCtx h rfl ?_ (.inl ?_)
      · simp
      · show c.tries + 1 ≤ 5; omega
    split
    · exact ht.op_submitAsk
    · exact ht

theorem Work.op_submitErase (h : Work a s) {i : Fin 4} {b : Block} : Work a (Machine.submitErase i b s) := by
  unfold Machine.submitErase
  repeat' with_reducible first
    | exact h
    | exact Work.refl _
    | refine Work.op_submit ?_
    | refine Work.op_blockEvent ?_
    | split

theorem idleCtx_idle {i : Fin 4} (hi : idleCtx s = some i) : (ctxOf s i).state = .idle := by
  simpa using List.find?_some hi

theorem Work.op_openOn (h : Work a s) {i : Fin 4} {b : Block} (hi : (ctxOf s i).state = .idle) :
    Work a (Machine.openOn i b s) := by
  unfold Machine.openOn
  extract_lets c
  split
  · exact Work.op_submitErase (Work.op_openCtx h rfl hi (Nat.zero_le 5))
  · exact Work.op_enterAsking (Work.op_openCtx h rfl hi (Nat.zero_le 5))

theorem Work.op_openOne (h : Work a s) : Work a (Machine.openOne s) := by
  unfold Machine.openOne
  split
  · split
    · next hi _ => exact h.op_openOn (idleCtx_idle hi)
    · exact h
  · exact h

theorem Work.op_openContexts (h : Work a s) : Work a (Machine.openContexts s) := by
  unfold Machine.openContexts
  repeat' with_reducible first
    | exact h
    | exact Work.refl _
    | refine Work.op_openOne ?_
    | split

theorem Work.op_fetchFollow (h : Work a s) : Work a (Machine.fetchFollow s) := by
  unfold Machine.fetchFollow
  repeat' with_reducible first
    | exact h
    | exact Work.refl _
    | refine Work.op_submitHeld ?_
    | refine Work.op_openContexts ?_
    | split

theorem Work.op_programNext (h : Work a s) {i : Fin 4} : Work a (Machine.programNext i s) := by
  unfold Machine.programNext
  extract_lets c
  split
  · exact h
  · split
    · refine Work.op_submit (Work.op_blockEvent (Work.op_setCtx h ?_ ?_ ?_))
      · rfl
      · exact id
      · exact .inr rfl
    · exact h

theorem Work.op_evaluate (h : Work a s) {i : Fin 4} : Work a (Machine.evaluate i s) := by
  unfold Machine.evaluate
  extract_lets c
  split
  · split
    · refine Work.op_submit (Work.op_blockEvent (Work.op_setCtx h ?_ ?_ ?_))
      · rfl
      · simp
      · exact .inr rfl
    · exact h.op_enterAsking
  · exact h

theorem Work.op_serveEnded (h : Work a s) {i : Fin 4} : Work a (Machine.serveEnded i s) := by
  refine Work.op_evaluate (Work.op_updateCtx h ?_ ?_ ?_) <;> intro c <;> simp

theorem Work.op_hearOffer (h : Work a s) {src : Addr} {k : Key} {b : Block} {m : Mask} {i : Fin 4} :
    Work a (Machine.hearOffer src k b m i s) := by
  unfold Machine.hearOffer
  extract_lets c
  split
  · split
    · refine Work.op_setCtx h rfl ?_ (.inr rfl)
      simp [Ctx.receive]
    · split
      · refine Work.op_setCtx h.op_txGiveUp rfl ?_ (.inr rfl)
        simp [Ctx.receive]
      · refine Work.op_setCtx h rfl ?_ (.inr rfl)
        simp [Ctx.receive]
  · split
    · exact Work.op_setCtx h rfl id (.inr rfl)
    · exact h

theorem Work.op_joinServe (h : Work a s) {src : Addr} {k : Key} {b : Block} {m : Mask} :
    Work a (Machine.joinServe src k b m s) := by
  unfold Machine.joinServe
  split
  · exact h
  · next i hi =>
    split
    · extract_lets c
      split
      · exact Work.op_submitErase (Work.op_openCtx h rfl (idleCtx_idle hi) (Nat.zero_le 5))
      · exact Work.op_openCtx h rfl (idleCtx_idle hi) (Nat.zero_le 5)
    · exact h

theorem Work.op_fetchOffer (h : Work a s) {src : Addr} {k : Key} {b : Block} {m : Mask} :
    Work a (Machine.fetchOffer src k b m s) :=
  Work.op_fetchFollow (Work.op_joinServe (Work.op_foldl (fun t _ => (Work.refl t).op_hearOffer) h _))

theorem Work.op_takeSegment (h : Work a s) {i : Fin 4} {g : Seg} {d : List Byte} (hi : (ctxOf s i).state ≠ .idle) :
    Work a (Machine.takeSegment i g d s) := by
  unfold Machine.takeSegment
  extract_lets c
  split
  · exact h
  · split
    · exact h
    · split
      · exact h.step (.fetch _ _ (fun hf => ⟨hf.1, hf.2.1, hf.2.2.1, Nat.min_le_left _ _, hf.2.2.2.2⟩))
      · next hp =>
        refine Work.op_programNext (h.step (.fetch { s.fetch with
          ctxs := s.fetch.ctxs.set i { c with buffers := c.buffers ++ [(g, d)] }, poolFree := s.fetch.poolFree - 1 } s
          (fun hf => ?_)))
        refine FetchFits.setCtx hf i _ _ _ ?_ (fun e => absurd e hi) (FetchFits.ctx hf i).2
        show s.fetch.poolFree - 1 + (c.buffers ++ [(g, d)]).length + s.fetch.poolInFlight =
          s.fetch.poolFree + c.buffers.length + s.fetch.poolInFlight
        simp; omega

theorem Work.op_fetchSegment (h : Work a s) {k : Key} {b : Block} {g : Seg} {d : List Byte} :
    Work a (Machine.fetchSegment k b g d s) := by
  unfold Machine.fetchSegment
  split
  · exact h
  · next i _ =>
    split
    · have hu : Work a (updateCtx i Ctx.heardSegment s) := by
        refine Work.op_updateCtx h ?_ ?_ ?_ <;> intro c <;> simp [Ctx.heardSegment]
      have hn : (ctxOf (updateCtx i Ctx.heardSegment s) i).state ≠ .idle := by
        have e : ctxOf (updateCtx i Ctx.heardSegment s) i = (ctxOf s i).heardSegment := by
          simp [ctxOf, updateCtx, setCtx]
        rw [e]; simp [Ctx.heardSegment]
      have ht := Work.op_takeSegment (g := g) (d := d) hu hn
      dsimp only
      split
      · exact ht.op_serveEnded.op_fetchFollow
      · exact ht
    · exact h

theorem Work.op_freeHead (h : Work a s) {i : Fin 4} : Work a (Machine.freeHead i s) := by
  unfold Machine.freeHead
  extract_lets c t
  refine h.step (.fetch _ _ (fun hf => ?_))
  refine FetchFits.setCtx hf i _ _ _ ?_ (fun e => ?_) (FetchFits.ctx hf i).2
  · show s.fetch.poolFree + min 1 c.buffers.length + (c.buffers.drop 1).length + s.fetch.poolInFlight =
      s.fetch.poolFree + c.buffers.length + s.fetch.poolInFlight
    simp; omega
  · show c.buffers.drop 1 = []
    rw [show c.buffers = [] from (FetchFits.ctx hf i).1 e]; rfl

theorem Work.op_freeInFlight (h : Work a s) : Work a (Machine.freeInFlight s) :=
  h.step (.fetch _ _ (fun hf => ⟨by have := hf.1; dsimp only; omega, hf.2⟩))

theorem Work.op_askSent (h : Work a s) {i : Fin 4} : Work a (Machine.askSent i s) := by
  unfold Machine.askSent
  split
  · refine Work.op_updateCtx h ?_ ?_ ?_ <;> intro c <;> simp
  · exact h

theorem Work.op_askUnsent (h : Work a s) {i : Fin 4} : Work a (Machine.askUnsent i s) := by
  unfold Machine.askUnsent
  split
  · refine Work.op_enterAsking (Work.op_updateCtx h ?_ ?_ ?_) <;> intro c <;> simp
  · exact h

theorem Work.op_askCleared (h : Work a s) {i : Fin 4} : Work a (Machine.askCleared i s) := by
  refine Work.op_updateCtx h ?_ ?_ ?_ <;> intro c <;> simp

theorem Work.op_holdAsk (h : Work a s) {i : Fin 4} : Work a (Machine.holdAsk i s) := by
  unfold Machine.holdAsk
  dsimp only
  split
  · split
    · exact h.op_txWithdraw
    · exact h.op_txWithdraw.op_askCleared
  · exact h

theorem Work.op_closeGate (h : Work a s) : Work a (Machine.closeGate s) :=
  Work.op_foldl (fun t _ => (Work.refl t).op_holdAsk) h _

theorem Work.op_abandon (h : Work a s) : Work a (Machine.abandon s) := by
  unfold Machine.abandon
  have ht : Work a (ctxIds.foldl (fun t i => if (ctxOf t i).state = .idle then t else releaseCtx i t) s) := by
    refine Work.op_foldl (fun t i => ?_) h _
    split
    · exact Work.refl t
    · exact (Work.refl t).op_releaseCtx
  revert ht
  generalize ctxIds.foldl (fun t i => if (ctxOf t i).state = .idle then t else releaseCtx i t) s = t
  intro ht
  exact Work.step ht (.fetch { t.fetch with deferral := [] } t
    (fun hf => ⟨hf.1, hf.2.1, hf.2.2.1, hf.2.2.2.1, Nat.zero_le _⟩))

theorem Work.op_updateStaging (h : Work a s) {f : SlotRecord → SlotRecord} : Work a (Machine.updateStaging f s) := h.op_setSlot

theorem Work.op_blockVerified (h : Work a s) {b : Block} {m : Option Manifest} : Work a (Machine.blockVerified b m s) := by
  unfold Machine.blockVerified
  split
  · exact h
  · extract_lets t u v
    have ht : Work a t := h.op_blockEvent
    have hu : Work a u := by
      show Work a (match b.val, m with | 0, some m => _ | _, _ => _)
      split
      · exact ht.op_updateStaging
      · exact ht
    have hv : Work a v := by
      show Work a (if _ then _ else _)
      split
      · exact hu
      · exact hu.op_addWork
    split
    · exact Work.op_raise hv.op_setStagingState
    · exact hv

theorem Work.op_loadUndo (h : Work a s) : Work a (Machine.loadUndo s) := by
  unfold Machine.loadUndo
  repeat' with_reducible first
    | exact h
    | exact Work.refl _
    | refine Work.op_setStagingState ?_
    | refine Work.op_cancelKey ?_
    | refine Work.op_updateStaging ?_
    | split

theorem Work.op_procedureFailed (h : Work a s) : Work a (Machine.procedureFailed s) := by
  unfold Machine.procedureFailed
  extract_lets t
  have ht : Work a t := h.op_setProcedure
  split
  · exact h
  · exact ht
  · exact Work.op_answer ht.op_setStagingState
  · exact ht.op_answer
  · exact ht.op_answer
  · exact Work.op_answer ht.op_loadUndo
  · exact h.op_setProcedure

theorem Work.op_setFrozen (h : Work a s) : Work a (Machine.setFrozen s) := by
  unfold Machine.setFrozen
  have h1 : Work a { s with cat := { s.cat with frozen := true, work := [] } } := h.step (.cat _ _)
  have h2 : Work a { s with
      cat := { s.cat with frozen := true, work := [] }, startUp := { s.startUp with repairs := 0 } } :=
    h1.step (.startUp _ _ (.inl rfl))
  exact h2.op_procedureFailed.op_closeGate

theorem Work.op_addAppend (h : Work a s) {r : CommitRecord} : Work a (Machine.addAppend r s) := by
  unfold Machine.addAppend
  split
  · exact h.op_raise.op_setFrozen
  · extract_lets r'
    split
    · exact Work.op_addWork (h.step (.cat _ _))
    · exact Work.op_addWork (Work.op_addWork (h.step (.cat _ _)))

theorem Work.op_dropMarks (h : Work a s) {x : Slot} : Work a (Machine.dropMarks x s) :=
  Work.op_withdrawJobs (h.step (.cat _ _))

theorem Work.op_startReclaim (h : Work a s) {k : Key} : Work a (Machine.startReclaim k s) := by
  unfold Machine.startReclaim
  extract_lets old s1 s2 s3 s4 s5 s6
  have h1 : Work a s1 := h.op_setProcedure.op_setStagingState.op_updateStaging
  have h3 : Work a s3 := h1.op_abandon.op_cancelKey
  have h6 : Work a s6 := h3.op_updateStaging.op_dropMarks.op_addWork
  exact h6.op_addAppend

theorem Work.op_takeUp (h : Work a s) {k : Key} {src : Addr} : Work a (Machine.takeUp k src s) := by
  unfold Machine.takeUp
  extract_lets settled
  split
  · exact h.op_startReclaim
  · split
    · split
      · exact h.op_setTarget
      · split
        · exact h.op_setTarget
        · exact h
    · exact h

theorem Work.op_judge (h : Work a s) {k : Key} {src : Addr} : Work a (Machine.judge k src s) := by
  unfold Machine.judge
  repeat' with_reducible first
    | exact h
    | exact Work.refl _
    | refine Work.op_raise ?_
    | refine Work.op_takeUp ?_
    | split

theorem Work.op_judgeTarget (h : Work a s) : Work a (Machine.judgeTarget s) := by
  unfold Machine.judgeTarget
  split
  · exact h
  · split
    · exact h
    · exact h.op_setTarget.op_judge

theorem Work.op_reclaimAppended (h : Work a s) : Work a (Machine.reclaimAppended s) := by
  unfold Machine.reclaimAppended
  extract_lets recordedKey t settle
  have ht : Work a t := h.op_raise
  have hs : Work a settle := ht.op_setProcedure.op_setStagingState.op_setTarget.op_fetchFollow
  split
  · split
    · exact ht.op_updateStaging.op_setTarget.op_addAppend
    · exact hs
  · exact hs

theorem Work.op_switchAppended (h : Work a s) {revert : Bool} : Work a (Machine.switchAppended revert s) := by
  unfold Machine.switchAppended
  extract_lets staging src t v
  have ht : Work a t := Work.step h (.cat _ _)
  exact ht.op_raise.op_answer.op_judgeTarget

theorem Work.op_floorAppended (h : Work a s) : Work a (Machine.floorAppended s) := by
  unfold Machine.floorAppended
  repeat' with_reducible first
    | exact h
    | exact Work.refl _
    | refine Work.op_setProcedure ?_
    | refine Work.op_answer ?_
    | refine Work.op_judgeTarget ?_
    | split

theorem Work.op_loadEndAppended (h : Work a s) : Work a (Machine.loadEndAppended s) := by
  unfold Machine.loadEndAppended
  extract_lets t r v
  have ht : Work a t := h.op_setProcedure.op_setStagingState
  exact ht.op_raise.op_answer.op_judgeTarget

theorem Work.op_appendDone (h : Work a s) {r : CommitRecord} : Work a (Machine.appendDone r s) := by
  unfold Machine.appendDone
  extract_lets src t
  have ht : Work a t := h.step (.cat _ _)
  split
  · exact ht.op_reclaimAppended
  · exact ht.op_switchAppended
  · exact ht.op_floorAppended
  · exact ht.op_setProcedure.op_answer
  · exact ht.op_loadEndAppended
  · exact ht

/-- The line controller changes, its link state perhaps too, and its queue stays. -/
theorem Work.op_relink (h : Work a s) {l : LineController} (hq : l.queue = s.line.queue)
    (hc : LineCounts s.line → LineCounts l)
    (hr : s.startUp.stage = .running ∨ s.line.link ≠ .offline ∨ s.line.listen ≠ .stopped)
    (ht : l.listen ≠ .stopped → l.link = .listenOnly ∨ s.line.listen ≠ .stopped ∧ s.line.link ≠ .listenOnly) :
    Work a { s with line := l } := Work.step h (.relink l s hq hc hr ht)

/-- LINK-CHANGE raised before or after a change of the line controller is the same. -/
theorem setLink_line (s : State) (k : LinkState) (l : LineController) :
    { setLink k s with line := l } = raise .linkChange (byteDetail (linkCode k)) { s with line := l } := rfl

theorem Work.op_enterJoining (h : Work a s)
    (hr : s.startUp.stage = .running ∨ s.line.link ≠ .offline ∨ s.line.listen ≠ .stopped) :
    Work a (Machine.enterJoining s) := by
  refine Work.op_fetchFollow ?_
  exact (Work.op_relink h (l := { s.line with link := .joining, joinLeft := some 300, listen := .stopped }) rfl id hr
    (fun e => absurd rfl e)).op_raise

theorem Work.op_enterActive (h : Work a s) (hr : s.line.link = .joining) : Work a (Machine.enterActive s) := by
  refine Work.op_fetchFollow ?_
  have h1 := Work.op_relink h (l := { s.line with link := .active, joinLeft := none }) rfl id
    (.inr (.inl (by rw [hr]; decide))) (fun e => .inr ⟨e, by rw [hr]; decide⟩)
  exact Work.step (h1.op_raise (k := .linkChange) (d := byteDetail (linkCode .active)))
    (.notice { s.notice with periodicLeft := some (2000 - s.notice.spacing.getD 0) } _ id)

theorem Work.op_publishReport (h : Work a s) {code : Byte} : Work a (Machine.publishReport code s) := by
  unfold Machine.publishReport
  split
  · exact h.op_answer
  · exact h

theorem Work.op_clearedReport (h : Work a s) {e : TxEntry} : Work a (Machine.clearedReport s e) := by
  unfold Machine.clearedReport
  split
  · exact h
  · exact h.op_publishReport
  · split
    · exact h.op_askCleared
    · exact h
  · exact h
  · exact h.op_setBuf

theorem Work.op_clearQueue (h : Work a s) : Work a (Machine.clearQueue s) := by
  refine Work.op_foldl (fun t _ => (Work.refl t).op_clearedReport) ?_ _
  exact Work.step h (.line { s.line with queue := s.line.queue.filter (·.onLine) } s (List.filter_sublist.map _) id rfl Or.inl)

theorem Work.op_quiet (h : Work a s) : Work a (Machine.quiet s) := by
  refine Work.op_cancelEntries (Work.op_clearQueue ?_)
  exact Work.op_noticeTimers h (n := { s.notice with periodicLeft := none, changed := false, owed := false }) rfl

theorem Work.op_enterListenOnly (h : Work a s) {timer : ListenTimer} (hr : s.line.link ≠ .offline) :
    Work a (Machine.enterListenOnly timer s) := by
  refine Work.op_quiet ?_
  exact (Work.op_relink h (l := { s.line with link := .listenOnly, echoMiss := 0, joinLeft := none, listen := timer })
    rfl (fun c => ⟨c.1, c.2.1, c.2.2.1, Nat.zero_le _⟩) (.inr (.inl hr)) (fun _ => .inl rfl)).op_raise

theorem Work.op_enterClash (h : Work a s) (hr : s.line.link ≠ .offline) : Work a (Machine.enterClash s) := by
  refine Work.op_quiet ?_
  exact (Work.op_relink h (l := { s.line with link := .clash, joinLeft := none, listen := .stopped })
    rfl id (.inr (.inl hr)) (fun e => absurd rfl e)).op_raise

theorem putOnLine_frames (c : Nat) (q : List TxEntry) : (putOnLine c q).map TxEntry.frame = q.map TxEntry.frame := by
  induction q with
  | nil => rfl
  | cons e es ih => unfold putOnLine; split <;> simp [ih]

theorem Work.op_lineIdleChoice (h : Work a s) : Work a (Machine.lineIdleChoice s) := by
  unfold Machine.lineIdleChoice
  split
  · exact Work.step h (.line { s.line with idleCount := 10 } s (List.Sublist.refl _) id rfl Or.inl)
  · refine Work.op_lineQueue h ?_
    rw [putOnLine_frames]

theorem Work.op_attemptReport (h : Work a s) {sent : Bool} {e : TxEntry} : Work a (Machine.attemptReport sent e s) := by
  unfold Machine.attemptReport
  split
  · split
    · next hc =>
      exact h.op_enterActive (by simp at hc; exact hc.2)
    · exact h
  · exact h.op_publishReport
  · extract_lets t
    have ht : Work a t := by
      show Work a (if _ then _ else _)
      split
      · exact h.op_markAsked
      · exact h
    split
    · split
      · exact ht.op_askSent
      · exact ht.op_askUnsent
    · exact ht
  · split
    · exact h.op_offerReport
    · exact h
  · exact h.op_segmentReport
  · exact h

theorem Work.op_givenUpReport (h : Work a s) {e : TxEntry} : Work a (Machine.givenUpReport e s) := by
  unfold Machine.givenUpReport
  repeat' with_reducible first
    | exact h
    | exact Work.refl _
    | refine Work.op_setBuf ?_
    | refine Work.op_serveAdvance ?_
    | split

theorem Work.op_loseContention (h : Work a s) {e : TxEntry} : Work a (Machine.loseContention e s) := by
  unfold Machine.loseContention
  have hf : Work a (lineLeft (s.line.queue.filter (fun x => !x.onLine)) s) := h.op_lineLeft (List.filter_sublist.map _)
  split
  · dsimp only
    split
    · exact hf.op_givenUpReport.op_fetchFollow
    · exact hf.op_givenUpReport
  · refine h.op_lineLeft ?_
    rw [List.map_map]; exact List.Sublist.refl _

theorem Work.op_missedOut (h : Work a s) : Work a (Machine.missedOut s) := by
  unfold Machine.missedOut
  split
  · next hc =>
    refine h.op_enterListenOnly (fun e => ?_)
    rw [e] at hc; simp [linkSends] at hc
  · exact h

theorem queueAfterAttempt_frames (g : Bool) (q : List TxEntry) :
    ((queueAfterAttempt g q).map TxEntry.frame).Sublist (q.map TxEntry.frame) := by
  unfold queueAfterAttempt
  split
  · exact List.filter_sublist.map _
  · rw [List.map_map]
    have e : ∀ x ∈ q, (TxEntry.frame ∘ fun x : TxEntry =>
        if x.onLine then { x with onLine := false, attempts := x.attempts + 1 } else x) x = x.frame := by
      intro x _; simp only [Function.comp]; split <;> rfl
    rw [List.map_congr_left e]

theorem countAttempt_link (e : Bool) (l : LineController) :
    (countAttempt e l).link = l.link ∧ (countAttempt e l).listen = l.listen := by
  unfold countAttempt; split <;> exact ⟨rfl, rfl⟩

theorem countAttempt_counts {l : LineController} (h : LineCounts l) (e : Bool) : LineCounts (countAttempt e l) := by
  unfold Machine.countAttempt
  obtain ⟨h1, h2, h3, h4⟩ := h
  split
  · refine ⟨Nat.min_le_left _ _, h2, h3, ?_⟩
    dsimp only; split <;> omega
  · refine ⟨h1, Nat.min_le_left _ _, h3, ?_⟩
    dsimp only; split <;> omega

theorem Work.op_endAttempt (h : Work a s) {echoed : Bool} {e : TxEntry} : Work a (Machine.endAttempt echoed e s) := by
  unfold Machine.endAttempt
  extract_lets decided line s1 s2 s3
  have h1 : Work a s1 := by
    refine Work.step h (.line { line with
      idleCount := 0, queue := queueAfterAttempt (decided || givenUp e) s.line.queue } s
      (queueAfterAttempt_frames _ _) (fun c => countAttempt_counts c echoed) (countAttempt_link echoed s.line).1 (fun e' => .inl ?_))
    rw [← (countAttempt_link echoed s.line).2]; exact e'
  have h2 : Work a s2 := h1.op_missedOut
  have h3 : Work a s3 := by
    show Work a (if _ then _ else _)
    split
    · exact h2.op_attemptReport
    · split
      · exact h2.op_givenUpReport
      · exact h2
  split
  · exact h3.op_submitOwed
  · exact h3.op_fetchFollow
  · exact h3

theorem Work.op_clashFrame (h : Work a s) : Work a (Machine.clashFrame s) := by
  unfold Machine.clashFrame
  dsimp only
  have ht : Work a (frameEnds false s) := h.op_frameEnds
  split
  · next e => exact ht.op_enterClash (by show s.line.link ≠ _; rw [e]; decide)
  · next e => exact ht.op_enterClash (by show s.line.link ≠ _; rw [e]; decide)
  · next e => exact ht.op_enterClash (by show s.line.link ≠ _; rw [e]; decide)
  · exact ht

theorem Work.op_receiveFrame (h : Work a s) {src : Addr} {format family : Bool} {deliver : State → State}
    (hd : ∀ t, Work a t → Work a (deliver t)) : Work a (Machine.receiveFrame src format family deliver s) := by
  unfold Machine.receiveFrame
  split
  · exact h
  · split
    · exact h.op_countReceiveError
    · split
      · exact h.op_clashFrame
      · have ht : Work a (Machine.touchPeer src (frameEnds (linkEchoes s.line.link) s)) := h.op_frameEnds.op_touchPeer
        dsimp only
        split
        · exact hd _ ht
        · exact ht

theorem Work.op_releaseCandidate (h : Work a s) {src : Addr} {k : Key} {count : Byte} : Work a (Machine.releaseCandidate src k count s) := by
  unfold Machine.releaseCandidate
  repeat' with_reducible first
    | exact h
    | exact Work.refl _
    | refine Work.op_judge ?_
    | split

theorem Work.op_deliverNotice (h : Work a s) {src : Addr} {n : NoticeFrame} : Work a (Machine.deliverNotice src n s) := by
  unfold Machine.deliverNotice
  split
  · exact Work.op_foldl (fun t _ => (Work.refl t).op_judge) h.op_refreshPeer _
  · exact h

theorem Work.op_rebuildEnd (h : Work a s) : Work a (Machine.rebuildEnd s) := by
  unfold Machine.rebuildEnd
  extract_lets src t
  have ht : Work a t := Work.step h (.startUp { s.startUp with stage := .running, rebuild := .idle } s (.inr rfl))
  split
  · exact ht
  · exact ht.op_enterJoining (.inl rfl)

theorem Work.op_tryRebuildEnd (h : Work a s) : Work a (Machine.tryRebuildEnd s) := by
  unfold Machine.tryRebuildEnd
  repeat' with_reducible first
    | exact h
    | exact Work.refl _
    | refine Work.op_rebuildEnd ?_
    | split

theorem Work.op_finishStaging (h : Work a s) : Work a (Machine.finishStaging s) := by
  unfold Machine.finishStaging
  extract_lets t
  have ht : Work a t := h.op_setRebuild
  split
  · exact ht.op_setStagingState.op_raise.op_tryRebuildEnd
  · exact ht.op_tryRebuildEnd

theorem Work.op_submitVerify (h : Work a s) {role : Role} {b : Block} : Work a (Machine.submitVerify role b s) := by
  unfold Machine.submitVerify
  split
  · extract_lets x r want
    exact h.op_setRebuild.op_submit
  · exact h.op_setRebuild

theorem Work.op_rebuildFrom (h : Work a s) {role : Role} {n : Nat} : Work a (Machine.rebuildFrom role n s) := by
  unfold Machine.rebuildFrom
  split
  · exact h.op_submitVerify
  · split
    · exact h.op_finishStaging
    · extract_lets src t
      have ht : Work a t := Work.step h (.cat _ _)
      split
      · exact ht.op_submitVerify
      · exact ht.op_finishStaging

theorem Work.op_updateRole (h : Work a s) {role : Role} {f : SlotRecord → SlotRecord} :
    Work a (Machine.updateRole role f s) := h.op_setSlot

theorem Work.op_repairMark (h : Work a s) {role : Role} {b : Block} : Work a (Machine.repairMark role b s) := by
  unfold Machine.repairMark
  split
  · exact Work.op_addWork (Work.step h (.startUp { s.startUp with repairs := s.startUp.repairs + 1 } s (.inl rfl)))
  · exact h

theorem Work.op_rebuildResult (h : Work a s) {pass : Bool} {b : Block} {m : Option Manifest} :
    Work a (Machine.rebuildResult pass b m s) := by
  unfold Machine.rebuildResult
  split
  · refine Work.op_rebuildFrom ?_
    split
    · refine Work.op_repairMark ?_
      split
      · exact h.op_updateRole.op_updateRole
      · exact h.op_updateRole
    · split
      · exact h.op_raise
      · exact h
  · exact h

theorem Work.op_rebuildResume (h : Work a s) : Work a (Machine.rebuildResume s) := by
  unfold Machine.rebuildResume
  repeat' with_reducible first
    | exact h
    | exact Work.refl _
    | refine Work.op_tryRebuildEnd ?_
    | refine Work.op_submitVerify ?_
    | split

theorem Work.op_setLoadMask (h : Work a s) {b : Block} {m : Mask} : Work a (Machine.setLoadMask b m s) := by
  unfold Machine.setLoadMask
  repeat' with_reducible first
    | exact h
    | exact Work.refl _
    | refine Work.op_setLoad ?_
    | split

theorem Work.op_clearLoadMask (h : Work a s) {b : Block} : Work a (Machine.clearLoadMask b s) := by
  unfold Machine.clearLoadMask
  extract_lets t
  have ht : Work a t := h.op_setLoad
  split
  · exact ht.op_setLoad
  · exact ht

theorem Work.op_captureSegment (h : Work a s) {g : Seg} {d : List Byte} : Work a (Machine.captureSegment g d s) := by
  unfold Machine.captureSegment
  repeat' with_reducible first
    | exact h
    | exact Work.refl _
    | refine Work.op_setLoad ?_
    | split

theorem Work.op_loadProgram (h : Work a s) {b : Block} {g : Seg} {d : List Byte} : Work a (Machine.loadProgram b g d s) := by
  unfold Machine.loadProgram
  repeat' with_reducible first
    | exact h
    | exact Work.refl _
    | refine Work.op_submit ?_
    | refine Work.op_blockEvent ?_
    | split

theorem Work.op_loadErase (h : Work a s) {b : Block} : Work a (Machine.loadErase b s) := by
  unfold Machine.loadErase
  repeat' with_reducible first
    | exact h
    | exact Work.refl _
    | refine Work.op_submit ?_
    | refine Work.op_blockEvent ?_
    | refine Work.op_clearLoadMask ?_
    | split

theorem Work.op_loadProtected (h : Work a s) {b : Block} : Work a (Machine.loadProtected b s) := by
  unfold Machine.loadProtected
  repeat' with_reducible first
    | exact h
    | exact Work.refl _
    | refine Work.op_answer ?_
    | refine Work.op_blockEvent ?_
    | split

theorem Work.op_loadErased (h : Work a s) {r : EraseResult} {b : Block} : Work a (Machine.loadErased r b s) := by
  unfold Machine.loadErased
  repeat' with_reducible first
    | exact h
    | exact Work.refl _
    | refine Work.op_answer ?_
    | refine Work.op_blockEvent ?_
    | refine Work.op_loadProgram ?_
    | refine Work.op_loadProtected ?_
    | split

theorem Work.op_loadProgrammed (h : Work a s) {r : ProgramResult} {b : Block} {g : Seg} {d : List Byte} :
    Work a (Machine.loadProgrammed r b g d s) := by
  unfold Machine.loadProgrammed
  split
  · extract_lets t u
    have ht : Work a t := h.op_blockEvent.op_setLoadMask
    refine Work.op_answer ?_
    show Work a (if _ then _ else _)
    split
    · exact ht.op_captureSegment
    · exact ht
  · exact h.op_blockEvent.op_clearLoadMask.op_loadProgram
  · exact h.op_blockEvent.op_setLoadMask.op_answer
  · exact h.op_loadProtected

theorem Work.op_loadEndFail (h : Work a s) {b : Nat} {cause : Byte} : Work a (Machine.loadEndFail b cause s) := by
  unfold Machine.loadEndFail
  repeat' with_reducible first
    | exact h
    | exact Work.refl _
    | refine Work.op_answer ?_
    | refine Work.op_loadUndo ?_
    | split

theorem Work.op_loadEndVerify (h : Work a s) {w : LoadEndWork} : Work a (Machine.loadEndVerify w s) := by
  unfold Machine.loadEndVerify
  dsimp only
  repeat' with_reducible first
    | exact h
    | exact Work.refl _
    | refine Work.op_submit ?_
    | refine Work.op_setCommand ?_
    | refine Work.op_blockEvent ?_
    | refine Work.op_loadEndFail ?_
    | split

theorem Work.op_loadEndAppend (h : Work a s) {k : Key} : Work a (Machine.loadEndAppend k s) := h.op_setProcedure.op_addAppend

theorem Work.op_loadEndPassed (h : Work a s) {w : LoadEndWork} : Work a (Machine.loadEndPassed w s) := by
  unfold Machine.loadEndPassed
  repeat' with_reducible first
    | exact h
    | exact Work.refl _
    | refine Work.op_setTarget ?_
    | refine Work.op_answer ?_
    | refine Work.op_loadUndo ?_
    | refine Work.op_startReclaim ?_
    | refine Work.op_loadEndFail ?_
    | refine Work.op_loadEndAppend ?_
    | split

theorem Work.op_loadEndVerified (h : Work a s) {pass : Bool} {m : Option Manifest} {running : BitVec 32} {b : Block} : Work a (Machine.loadEndVerified pass m running b s) := by
  unfold Machine.loadEndVerified
  dsimp only
  repeat' with_reducible first
    | exact h
    | exact Work.refl _
    | refine Work.op_blockEvent ?_
    | refine Work.op_blockVerified ?_
    | refine Work.op_loadEndFail ?_
    | refine Work.op_loadEndVerify ?_
    | refine Work.op_loadEndPassed ?_
    | split

theorem Work.op_loadEndStart (h : Work a s) {k : Key} {m : Manifest} : Work a (Machine.loadEndStart k m s) :=
  h.op_updateStaging.op_loadEndVerify

theorem Work.op_readAnswer (h : Work a s) {r : Resolved} {data : Option (List Byte)} : Work a (Machine.readAnswer r data s) := by
  unfold Machine.readAnswer
  repeat' with_reducible first
    | exact h
    | exact Work.refl _
    | refine Work.op_answer ?_
    | split

theorem Work.op_checksumNext (h : Work a s) {role : Role} {first count : Nat} {done : List CheckLine} : Work a (Machine.checksumNext role first count done s) := by
  unfold Machine.checksumNext
  repeat' with_reducible first
    | exact h
    | exact Work.refl _
    | refine Work.op_submit ?_
    | refine Work.op_setCommand ?_
    | split

theorem Work.op_checksumLine (h : Work a s) {line : CheckLine} : Work a (Machine.checksumLine line s) := by
  unfold Machine.checksumLine
  dsimp only
  repeat' with_reducible first
    | exact h
    | exact Work.refl _
    | refine Work.op_answer ?_
    | refine Work.op_checksumNext ?_
    | split

theorem Work.op_wipeStep (h : Work a s) {step : WipeStep} {failed : Bool} : Work a (Machine.wipeStep step failed s) := by
  unfold Machine.wipeStep
  extract_lets t
  have ht : Work a t := h.op_setProcedure
  split
  · exact ht
  · exact ht.op_addWork
  · exact ht.op_submit
  · exact ht.op_addWork
  · exact ht.op_addWork

theorem Work.op_wipeNext (h : Work a s) : Work a (Machine.wipeNext s) := by
  unfold Machine.wipeNext
  repeat' with_reducible first
    | exact h
    | exact Work.refl _
    | refine Work.op_deviceReset ?_
    | refine Work.op_wipeStep ?_
    | split

theorem Work.op_wipeLink (h : Work a s) : Work a (Machine.wipeLink s) := by
  unfold Machine.wipeLink
  split
  · next e => exact h.op_enterListenOnly (by rw [e]; decide)
  · next e => exact h.op_enterListenOnly (by rw [e]; decide)
  · next e => exact h.step (.line _ _ (List.Sublist.refl _) id rfl (fun _ => .inr e))
  · exact h

theorem Work.op_wipeBegin (h : Work a s) : Work a (Machine.wipeBegin s) := by
  unfold Machine.wipeBegin
  extract_lets t src u v src' w
  have ht : Work a t := h.op_wipeLink
  have hu : Work a u := Work.op_withdrawJobs (Work.step ht (.cat _ _))
  have hw : Work a w := Work.step hu.op_abandon (.cat _ _)
  split
  · exact hw
  · exact hw.op_wipeNext

theorem Work.op_jobReturned (h : Work a s) {i : Fin 4} : Work a (Machine.jobReturned i s) :=
  h.op_updateCtx (fun _ => rfl) (fun _ => id) (fun _ => rfl)

theorem Work.op_endCtx (h : Work a s) {i : Fin 4} : Work a (Machine.endCtx i s) := by
  unfold Machine.endCtx
  repeat' with_reducible first
    | exact h
    | exact Work.refl _
    | refine Work.op_releaseCtx ?_
    | refine Work.op_fetchFollow ?_
    | split

theorem Work.op_fetchBlank (h : Work a s) {i : Fin 4} : Work a (Machine.fetchBlank i s) := by
  unfold Machine.fetchBlank
  repeat' with_reducible first
    | exact h
    | exact Work.refl _
    | refine Work.op_enterAsking ?_
    | refine Work.op_fetchFollow ?_
    | refine Work.op_programNext ?_
    | refine Work.op_evaluate ?_
    | split

theorem Work.op_fetchErased (h : Work a s) {r : EraseResult} {i : Fin 4} {b : Block} :
    Work a (Machine.fetchErased r i b s) := by
  unfold Machine.fetchErased
  extract_lets t
  have ht : Work a t := h.op_jobReturned
  split
  · exact ht.op_blockEvent.op_fetchBlank
  · exact ht.op_blockEvent.op_endCtx
  · exact ht.op_blockEvent.op_endCtx

theorem Work.op_orphanErased (h : Work a s) {r : EraseResult} {x : Slot} {b : Block} : Work a (Machine.orphanErased r x b s) := by
  unfold Machine.orphanErased
  repeat' with_reducible first
    | exact h
    | exact Work.refl _
    | refine Work.op_blockEvent ?_
    | split

theorem Work.op_fetchProgrammed (h : Work a s) {r : ProgramResult} {i : Fin 4} {b : Block} {g : Seg} :
    Work a (Machine.fetchProgrammed r i b g s) := by
  unfold Machine.fetchProgrammed
  extract_lets t
  have ht : Work a t := h.op_jobReturned
  split
  · refine Work.op_fetchFollow (Work.op_evaluate (Work.op_programNext (Work.op_freeHead ?_)))
    refine Work.op_updateCtx ht.op_blockEvent ?_ ?_ ?_ <;> intro c <;> simp
  · refine Work.op_programNext ?_
    refine Work.op_updateCtx ht.op_blockEvent ?_ ?_ ?_ <;> intro c <;> simp
  · exact ht.op_blockEvent.op_endCtx
  · exact ht.op_blockEvent.op_endCtx

theorem Work.op_fetchVerified (h : Work a s) {pass : Bool} {m : Option Manifest} {i : Fin 4} {b : Block} :
    Work a (Machine.fetchVerified pass m i b s) := by
  unfold Machine.fetchVerified
  extract_lets t
  have ht : Work a t := h.op_jobReturned
  split
  · exact ht.op_blockVerified.op_endCtx
  · refine Work.op_submitErase ?_
    refine Work.op_updateCtx ht.op_blockEvent ?_ ?_ ?_ <;> intro c <;> simp [Ctx.restarted]

theorem Work.op_eraseReturn (h : Work a s) {v : Service} {r : EraseResult} : Work a (Machine.eraseReturn v r s) := by
  unfold Machine.eraseReturn
  repeat' with_reducible first
    | exact h
    | exact Work.refl _
    | refine Work.op_loadErased ?_
    | refine Work.op_wipeNext ?_
    | refine Work.op_fetchErased ?_
    | refine Work.op_orphanErased ?_
    | split

theorem Work.op_programReturn (h : Work a s) {v : Service} {r : ProgramResult} : Work a (Machine.programReturn v r s) := by
  unfold Machine.programReturn
  repeat' with_reducible first
    | exact h
    | exact Work.refl _
    | refine Work.op_freeInFlight ?_
    | refine Work.op_loadProgrammed ?_
    | refine Work.op_fetchProgrammed ?_
    | split

theorem Work.op_verifyReturn (h : Work a s) {v : Service} {pass : Bool} {m : Option Manifest} {running : BitVec 32} : Work a (Machine.verifyReturn v pass m running s) := by
  unfold Machine.verifyReturn
  repeat' with_reducible first
    | exact h
    | exact Work.refl _
    | refine Work.op_rebuildResult ?_
    | refine Work.op_loadEndVerified ?_
    | refine Work.op_fetchVerified ?_
    | split

theorem Work.op_deadReturn (h : Work a s) {v : Service} : Work a (Machine.deadReturn v s) := by
  unfold Machine.deadReturn
  repeat' with_reducible first
    | exact h
    | exact Work.refl _
    | refine Work.op_raise ?_
    | refine Work.op_eraseReturn ?_
    | refine Work.op_programReturn ?_
    | split

/-- The record queue emptied is a withdrawal of every job in it. -/
theorem recordQ_emptied (t : State) :
    { t with flash := { t.flash with recordQ := [] } } = withdrawJobs .record (fun _ => true) t := by
  have e : (t.flash.recordQ.filter fun _ => !true) = [] := by simp
  show _ = { t with flash := { t.flash with recordQ := t.flash.recordQ.filter fun _ => !true } }
  rw [e]

theorem Work.op_controlFailed (h : Work a s) {u : ControlUnit} {j : Job} : Work a (Machine.controlFailed u j s) := by
  unfold Machine.controlFailed
  have hr : Work a (raise .arrayFault (faultDetail (controlNumber u) (jobCode j)) s) := h.op_raise
  revert hr
  generalize raise .arrayFault (faultDetail (controlNumber u) (jobCode j)) s = t
  intro hr
  have hw := Work.op_withdrawJobs hr (q := .record) (p := fun _ => true)
  rw [← recordQ_emptied] at hw
  dsimp only
  split
  · exact Work.op_wipeNext hw
  · split
    · exact Work.op_wipeNext (Work.op_setFrozen hw)
    · exact Work.op_rebuildResume (Work.op_setFrozen hw)

theorem Work.op_repairReturned (h : Work a s) : Work a (Machine.repairReturned s) := by
  unfold Machine.repairReturned
  split
  · exact Work.op_rebuildResume (h.step (.startUp _ _ (.inl rfl)))
  · exact h

theorem Work.op_controlDone (h : Work a s) {j : Job} : Work a (Machine.controlDone j s) := by
  unfold Machine.controlDone
  repeat' with_reducible first
    | exact h
    | exact Work.refl _
    | refine Work.op_appendDone ?_
    | refine Work.op_wipeNext ?_
    | refine Work.op_repairReturned ?_
    | split

theorem Work.op_retire (h : Work a s) {v : Service} : Work a (Machine.retire v s) := by
  unfold Machine.retire
  repeat' with_reducible first
    | exact h
    | exact Work.refl _
    | refine Work.op_setService ?_
    | refine Work.op_endService ?_
    | refine Work.op_deadReturn ?_
    | split

theorem Work.op_attemptFailed (h : Work a s) {v : Service} {n : Nat} : Work a (Machine.attemptFailed v n s) := by
  unfold Machine.attemptFailed
  repeat' with_reducible first
    | exact h
    | exact Work.refl _
    | refine Work.op_setService ?_
    | refine Work.op_endService ?_
    | refine Work.op_controlFailed ?_
    | refine Work.op_retire ?_
    | split

theorem Work.op_attemptPassed (h : Work a s) {v : Service} : Work a (Machine.attemptPassed v s) := by
  unfold Machine.attemptPassed
  repeat' with_reducible first
    | exact h
    | exact Work.refl _
    | refine Work.op_endService ?_
    | refine Work.op_eraseReturn ?_
    | refine Work.op_programReturn ?_
    | refine Work.op_controlDone ?_
    | split

theorem Work.op_spares (h : Work a s) {m : Vector SparePos 8} :
    Work a { s with flash := { s.flash with spares := m } } :=
  Work.step h (.flash { s.flash with spares := m } s ⟨rfl, rfl, rfl, rfl, rfl⟩)

theorem Work.op_entryFailed (h : Work a s) {v : Service} {p : Fin 8} : Work a (Machine.entryFailed v p s) :=
  Work.op_retire (Work.op_raise (Work.op_spares h))

theorem Work.op_entryPassed (h : Work a s) {v : Service} {p : Fin 8} : Work a (Machine.entryPassed v p s) := by
  unfold Machine.entryPassed
  split
  · exact Work.op_setService (Work.op_raise (Work.op_spares h))
  · exact h

theorem Work.op_nodeReturn (h : Work a s) {done : Bool} {family : BitVec 16} : Work a (Machine.nodeReturn done family s) := by
  unfold Machine.nodeReturn
  repeat' with_reducible first
    | exact h
    | exact Work.refl _
    | refine Work.op_raise ?_
    | refine Work.op_answer ?_
    | split

theorem Work.op_protectedReturn (h : Work a s) {v : Service} : Work a (Machine.protectedReturn v s) := by
  unfold Machine.protectedReturn
  repeat' with_reducible first
    | exact h
    | exact Work.refl _
    | refine Work.op_endService ?_
    | refine Work.op_eraseReturn ?_
    | refine Work.op_programReturn ?_
    | split

theorem Work.op_drainProtected (h : Work a s) {n : Nat} : Work a (Machine.drainProtected n s) := by
  induction n generalizing s with
  | zero => exact h
  | succ n ih =>
    unfold Machine.drainProtected
    split
    · split
      · exact ih h.op_protectedReturn
      · exact h
    · exact h

theorem Work.op_settle (h : Work a s) {b : State} : Work a (Machine.settle b s) :=
  Work.op_noticeWatch (Work.op_drainProtected h)

theorem Work.op_captured (h : Work a s) : Work a (Machine.captured s) := by
  unfold Machine.captured
  split
  · exact h
  · exact h.op_captureState

theorem Work.op_endTransaction (h : Work a s) {n : Nat} {f : List Byte} : Work a (Machine.endTransaction n f s) :=
  Work.step h.op_captured (.port _ _ rfl)

theorem Work.op_answerRead (h : Work a s) {n : Nat} : Work a (Machine.answerRead n s) := by
  unfold Machine.answerRead
  extract_lets t
  have ht : Work a t := h.op_endTransaction
  split
  · exact Work.step ht (.port { t.port with state := .idle, answer := none } t rfl)
  · exact ht

theorem Work.op_takeFrame (h : Work a s) {c : HostCommand} {params : List Byte} {body : State → State}
    (hb : ∀ t, Work a t → Work a (body t)) : Work a (Machine.takeFrame c params body s) := by
  unfold Machine.takeFrame
  extract_lets src t
  have ht : Work a t := Work.step h (.port _ _ rfl)
  split
  · exact ht.op_answer
  · split
    · exact ht.op_answer
    · exact hb t ht

theorem Work.op_hostCommand (h : Work a s) {c : HostCommand} {params : Params} {body : State → State}
    (hb : ∀ t, Work a t → Work a (body t)) : Work a (Machine.hostCommand c params body s) := by
  unfold Machine.hostCommand
  split
  · exact h.op_releasePins
  · extract_lets t
    have ht : Work a t := h.op_endTransaction
    split
    · exact ht
    · split
      · exact ht.op_answer
      · exact ht.op_takeFrame hb

theorem Work.op_badParam (h : Work a s) : Work a (Machine.badParam s) := by
  unfold Machine.badParam
  repeat' with_reducible first
    | exact h
    | exact Work.refl _
    | refine Work.op_answer ?_
    | split

theorem Work.op_idBody (h : Work a s) : Work a (Machine.idBody s) := by
  unfold Machine.idBody
  repeat' with_reducible first
    | exact h
    | exact Work.refl _
    | refine Work.op_setCommand ?_
    | refine Work.op_answer ?_
    | split

theorem Work.op_statBody (h : Work a s) : Work a (Machine.statBody s) := by
  unfold Machine.statBody
  repeat' with_reducible first
    | exact h
    | exact Work.refl _
    | refine Work.op_setCommand ?_
    | refine Work.op_answer ?_
    | split

theorem Work.op_identBody (h : Work a s) {params : List Byte} : Work a (Machine.identBody params s) := by
  unfold Machine.identBody
  extract_lets f
  split
  · exact h.op_badParam
  · split
    · exact Work.op_submit (Work.step h (.port { s.port with identSubmitted := true, command := some (.ident f) } s rfl))
    · exact h.op_answer

theorem Work.op_slotsBody (h : Work a s) : Work a (Machine.slotsBody s) := by
  unfold Machine.slotsBody
  repeat' with_reducible first
    | exact h
    | exact Work.refl _
    | refine Work.op_answer ?_
    | split

theorem Work.op_blocksBody (h : Work a s) {params : List Byte} : Work a (Machine.blocksBody params s) := by
  unfold Machine.blocksBody
  dsimp only
  repeat' with_reducible first
    | exact h
    | exact Work.refl _
    | refine Work.op_answer ?_
    | refine Work.op_badParam ?_
    | split

theorem Work.op_peersBody (h : Work a s) {params : List Byte} : Work a (Machine.peersBody params s) := by
  unfold Machine.peersBody
  dsimp only
  repeat' with_reducible first
    | exact h
    | exact Work.refl _
    | refine Work.op_answer ?_
    | refine Work.op_badParam ?_
    | split

theorem Work.op_eventBody (h : Work a s) {params : List Byte} : Work a (Machine.eventBody params s) := by
  unfold Machine.eventBody
  extract_lets k
  split
  · exact Work.op_answer (h.step (.takeEvents _ k _ rfl))
  · exact h.op_badParam

theorem Work.op_readBody (h : Work a s) {params : List Byte} : Work a (Machine.readBody params s) := by
  unfold Machine.readBody
  dsimp only
  repeat' with_reducible first
    | exact h
    | exact Work.refl _
    | refine Work.op_submit ?_
    | refine Work.op_setCommand ?_
    | refine Work.op_badParam ?_
    | split

theorem Work.op_checksumBody (h : Work a s) {params : List Byte} : Work a (Machine.checksumBody params s) := by
  unfold Machine.checksumBody
  dsimp only
  repeat' with_reducible first
    | exact h
    | exact Work.refl _
    | refine Work.op_checksumNext ?_
    | refine Work.op_badParam ?_
    | split

theorem Work.op_startSwitch (h : Work a s) {revert : Bool} : Work a (Machine.startSwitch revert s) :=
  h.op_setStagingState.op_setProcedure.op_setCommand.op_addAppend

theorem Work.op_acceptBody (h : Work a s) {params : List Byte} : Work a (Machine.acceptBody params s) := by
  unfold Machine.acceptBody
  dsimp only
  repeat' with_reducible first
    | exact h
    | exact Work.refl _
    | refine Work.op_answer ?_
    | refine Work.op_badParam ?_
    | refine Work.op_startSwitch ?_
    | split

theorem Work.op_floorBody (h : Work a s) {params : List Byte} : Work a (Machine.floorBody params s) := by
  unfold Machine.floorBody
  dsimp only
  repeat' with_reducible first
    | exact h
    | exact Work.refl _
    | refine Work.op_setProcedure ?_
    | refine Work.op_setCommand ?_
    | refine Work.op_answer ?_
    | refine Work.op_addAppend ?_
    | split

theorem Work.op_startLoad (h : Work a s) : Work a (Machine.startLoad s) := by
  unfold Machine.startLoad
  extract_lets old s1 s2 s3 s4 s5 s6
  have h1 : Work a s1 := h.op_setProcedure.op_setCommand.op_setLoad.op_setStagingState.op_updateStaging
  have h3 : Work a s3 := h1.op_abandon.op_cancelKey
  have h6 : Work a s6 := h3.op_updateStaging.op_dropMarks.op_addWork
  exact h6.op_addAppend

theorem Work.op_loadBeginBody (h : Work a s) : Work a (Machine.loadBeginBody s) := by
  unfold Machine.loadBeginBody
  repeat' with_reducible first
    | exact h
    | exact Work.refl _
    | refine Work.op_answer ?_
    | refine Work.op_startLoad ?_
    | split

theorem Work.op_loadSegment (h : Work a s) {b : Block} {g : Seg} {d : List Byte} : Work a (Machine.loadSegment b g d s) := by
  unfold Machine.loadSegment
  dsimp only
  repeat' with_reducible first
    | exact h
    | exact Work.refl _
    | refine Work.op_setCommand ?_
    | refine Work.op_answer ?_
    | refine Work.op_loadProgram ?_
    | refine Work.op_loadErase ?_
    | split

theorem Work.op_loadDataBody (h : Work a s) {params : List Byte} : Work a (Machine.loadDataBody params s) := by
  unfold Machine.loadDataBody
  repeat' with_reducible first
    | exact h
    | exact Work.refl _
    | refine Work.op_answer ?_
    | refine Work.op_badParam ?_
    | refine Work.op_loadSegment ?_
    | split

theorem Work.op_loadEndBody (h : Work a s) : Work a (Machine.loadEndBody s) := by
  unfold Machine.loadEndBody
  dsimp only
  repeat' with_reducible first
    | exact h
    | exact Work.refl _
    | refine Work.op_answer ?_
    | refine Work.op_loadEndStart ?_
    | split

theorem Work.op_loadAbortBody (h : Work a s) : Work a (Machine.loadAbortBody s) := by
  unfold Machine.loadAbortBody
  repeat' with_reducible first
    | exact h
    | exact Work.refl _
    | refine Work.op_setLoad ?_
    | refine Work.op_setStagingState ?_
    | refine Work.op_answer ?_
    | refine Work.op_updateStaging ?_
    | refine Work.op_judgeTarget ?_
    | split

theorem Work.op_publishKey (h : Work a s) {k : Key} {count : Nat} : Work a (Machine.publishKey k count s) := by
  unfold Machine.publishKey
  dsimp only
  repeat' with_reducible first
    | exact h
    | exact Work.refl _
    | refine Work.op_setCommand ?_
    | refine Work.op_answer ?_
    | refine Work.op_txSubmit ?_
    | refine Work.op_judge ?_
    | split

theorem Work.op_publishBody (h : Work a s) {params : List Byte} : Work a (Machine.publishBody params s) := by
  unfold Machine.publishBody
  dsimp only
  repeat' with_reducible first
    | exact h
    | exact Work.refl _
    | refine Work.op_answer ?_
    | refine Work.op_badParam ?_
    | refine Work.op_publishKey ?_
    | split

theorem Work.op_setHold (h : Work a s) {v : Bool} : Work a (Machine.setHold v s) := h.step (.fetch _ _ id)

theorem Work.op_holdBody (h : Work a s) : Work a (Machine.holdBody s) := h.op_setHold.op_closeGate.op_answer

theorem Work.op_resumeBody (h : Work a s) : Work a (Machine.resumeBody s) := h.op_setHold.op_fetchFollow.op_answer

theorem Work.op_wipeBody (h : Work a s) : Work a (Machine.wipeBody s) := h.op_setCommand.op_wipeBegin

end Sys2Proof.Machine
end

