-- ==== Sys2Proof/Laws/Run.lean ====
section
/-! SUPPORT. What a command can do, said once: its next state is a run of small changes from the state itself, from the
state whose array the operation in service has written, from a device reset, or from a point of the start-up. -/

namespace Sys2Proof.Machine

/-- The start-up begins with the straps sampled (R192, R193). -/
def startUpBegun (pins : Straps) (s : State) : State :=
  { s with pins := { s.pins with resetLow := false, straps := pins }, startUp := .reset .reading pins }

/-- Where the run of small changes of a command starts. -/
inductive Origin (c : Instr) (s : State) : State → Prop where
  | same : Origin c s s
  | array (v : Service) (left : Left) (hw : writesArray c = true) (hb : strapsBrought c = none) (hv : s.flash.service = some v) :
      Origin c s (leaveContent v left s)
  | strapped (v : Service) (left : Left) (straps : Straps) (hw : writesArray c = true)
      (hb : strapsBrought c = some straps) (hv : s.flash.service = some v) :
      Origin c s (leaveContent v left (strapPins straps s))
  | reset (p : HostPort) (pins : Pins) (left : Left) (hw : writesArray c = true) (hp : movesPins c = true) :
      Origin c s (deviceReset pins (cutShort left { s with port := p }))
  | begins (pins : Straps) (hp : movesPins c = true) (hs : s.startUp.stage = .held) : Origin c s (startUpBegun pins s)
  | handed (hs : s.startUp.stage = .reading) : Origin c s (readsHandedOver s)

theorem Work.op_eraseOutcome {v : Service} {n : Nat} {b : Bool} (h : Work a s) :
    Work a (if b then attemptPassed v s else attemptFailed v n s) := by
  split
  · exact h.op_attemptPassed
  · exact h.op_attemptFailed

theorem Work.op_overtimeFault {v : Service} (h : Work a s) : Work a (overtimeFault v s) := h.op_raise

theorem Work.op_mainOvertime {v : Service} {left : Left} {s t : State} (e : mainOvertime v left s = some t) :
    Work (leaveContent v left s) t := by
  have h := Work.refl (leaveContent v left s)
  unfold mainOvertime at e
  dsimp only at e
  split at e
  · cases e; exact h.op_overtimeFault.op_retire
  · cases e; exact h.op_nodeReturn.op_endService
  · cases e; exact h.op_overtimeFault.op_verifyReturn.op_endService
  · cases e; exact h.op_overtimeFault.op_readResult.op_endService
  · split at e
    · cases e; exact h.op_overtimeFault.op_readAnswer.op_endService
    · cases e
  · split at e
    · cases e; exact h.op_overtimeFault.op_checksumLine.op_endService
    · cases e
  · cases e; exact h.op_overtimeFault.op_controlFailed.op_endService
  · cases e; exact h.op_overtimeFault.op_controlFailed.op_endService
  · cases e

theorem Work.op_operationOvertime {v : Service} {left : Left} {s t : State} (e : operationOvertime v left s = some t) :
    Work (leaveContent v left s) t := by
  have h := Work.refl (leaveContent v left s)
  unfold operationOvertime at e
  split at e
  · cases e; exact h.op_overtimeFault.op_attemptFailed
  · cases e; exact h.op_entryFailed
  · exact Work.op_mainOvertime e
  · cases e

/-! ## Each command -/

theorem next_inj {s t : State} (h : (.next s : Host.Outcome State Fault Refusal) = .next t) : s = t := by cases h; rfl

/-- A command's next state is a run of small changes from one of its origins. -/
abbrev Runs (c : Instr) (s : State) (o : Host.Outcome State Fault Refusal) : Prop :=
  ∀ t, o = .next t → ∃ a, Origin c s a ∧ Work a t

theorem Runs.next {c : Instr} {s b t : State} (o : Origin c s b) (h : Work b t) : Runs c s (.next t) :=
  fun _ e => ⟨b, o, next_inj e ▸ h⟩

theorem Runs.settled {c : Instr} {s b t : State} (o : Origin c s b) (h : Work b t) : Runs c s (conclude s t) :=
  .next o h.op_settle

theorem Runs.refused {c : Instr} {s : State} {r : Refusal} : Runs c s (.refused r) := fun _ e => nomatch e

theorem runs_eraseAttempt (l : Left) (s : State) : Runs (.eraseAttempt l) s (execEraseAttempt l s) := by
  unfold execEraseAttempt
  split
  · rename_i v hv
    split
    · exact .settled (.array v l rfl rfl hv) (Work.op_eraseOutcome (Work.refl _))
    · exact .refused
  · exact .refused

theorem runs_spareEntryProgram (l : Left) (s : State) : Runs (.spareEntryProgram l) s (execSpareEntryProgram l s) := by
  unfold execSpareEntryProgram
  split
  · rename_i v hv
    split
    · split
      · refine .settled (.array v l rfl rfl hv) ?_
        unfold entryEnds
        dsimp only
        split
        · exact (Work.refl _).op_entryPassed
        · exact (Work.refl _).op_entryFailed
      · exact .refused
    · exact .refused
  · exact .refused

theorem runs_programSegment (l : Left) (s : State) : Runs (.programSegment l) s (execProgramSegment l s) := by
  unfold execProgramSegment
  split
  · rename_i v hv
    split
    · unfold segmentEnds
      split
      · dsimp only
        refine .settled (.array v l rfl rfl hv) ?_
        split
        · exact (Work.refl _).op_programReturn.op_endService
        · exact (Work.refl _).op_retire
      · exact .settled .same (Work.refl _)
    · exact .settled (.array v l rfl rfl hv) (Work.refl _).op_nodeReturn.op_endService
    · exact .refused
  · exact .refused

theorem runs_verifyBlock (s : State) : Runs .verifyBlock s (execVerifyBlock s) := by
  unfold execVerifyBlock
  split
  · split
    · exact .settled .same (Work.refl _).op_verifyReturn.op_endService
    · exact .refused
  · exact .refused

theorem runs_readSegment (s : State) : Runs .readSegment s (execReadSegment s) := by
  unfold execReadSegment
  split
  · split
    · exact .settled .same (Work.refl _).op_readResult.op_endService
    · exact .refused
  · exact .refused

theorem runs_readRange (s : State) : Runs .readRange s (execReadRange s) := by
  unfold execReadRange
  split
  · split
    · exact .settled .same (Work.refl _).op_readAnswer.op_endService
    · exact .refused
  · exact .refused

theorem runs_checkBlock (s : State) : Runs .checkBlock s (execCheckBlock s) := by
  unfold execCheckBlock
  split
  · split
    · exact .settled .same (Work.refl _).op_checksumLine.op_endService
    · exact .refused
  · exact .refused

theorem runs_setMark (l : Left) (s : State) : Runs (.setMark l) s (execSetMark l s) := by
  unfold execSetMark
  split
  · rename_i v hv
    split
    · refine .settled (.array v l rfl rfl hv) ?_
      refine Work.op_endService ?_
      split
      · exact (Work.refl _).op_controlDone
      · exact (Work.refl _).op_controlFailed
    · exact .refused
  · exact .refused

theorem runs_appendRecord (l : LastLeft) (s : State) : Runs (.appendRecord l) s (execAppendRecord l s) := by
  unfold execAppendRecord
  split
  · rename_i v hv
    split
    · refine .settled (.strapped v l.content l.straps rfl rfl hv) ?_
      refine Work.op_endService ?_
      split
      · exact (Work.refl _).op_controlDone
      · exact (Work.refl _).op_controlFailed
    · exact .refused
  · exact .refused

theorem runs_overtime (l : LastLeft) (s : State) : Runs (.overtime l) s (execOvertime l s) := by
  unfold execOvertime
  split
  · rename_i v hv
    split
    · split
      · rename_i e
        exact .settled (.strapped v l.content l.straps rfl rfl hv) (Work.op_operationOvertime e)
      · exact .refused
    · exact .refused
  · exact .refused

theorem runs_lineIdle (s : State) : Runs .lineIdle s (execLineIdle s) := by
  unfold execLineIdle
  split
  · exact .next .same (Work.refl _)
  · split
    · exact .refused
    · exact .next .same (Work.refl _).op_lineIdleChoice

theorem runs_contentionLost (s : State) : Runs .contentionLost s (execContentionLost s) := by
  unfold execContentionLost
  split
  · exact .next .same (Work.refl _).op_loseContention
  · exact .refused

theorem runs_bitError (s : State) : Runs .bitError s (execBitError s) := by
  unfold execBitError
  split
  · exact .settled .same (Work.refl _).op_endAttempt
  · exact .refused

theorem runs_attemptEnd (b : Bool) (s : State) : Runs (.attemptEnd b) s (execAttemptEnd b s) := by
  unfold execAttemptEnd
  split
  · exact .settled .same (Work.refl _).op_endAttempt
  · exact .refused

theorem runs_frameDiscarded (bits : List Bool) (d : Bool) (s : State) :
    Runs (.frameDiscarded bits d) s (execFrameDiscarded bits d s) := by
  unfold execFrameDiscarded
  split
  · exact .next .same (Work.refl _)
  · split
    · exact .next .same (Work.refl _).op_countReceiveError
    · exact .refused

theorem runs_clash (s : State) : Runs .clash s (execClash s) := by
  unfold execClash
  split
  · exact .next .same (Work.refl _)
  · exact .next .same (Work.refl _).op_clashFrame

theorem runs_releaseReceived (src : Addr) (k : Key) (n : Byte) (s : State) :
    Runs (.releaseReceived src k n) s (execReleaseReceived src k n s) :=
  .settled .same ((Work.refl _).op_receiveFrame fun _ h => h.op_releaseCandidate)

theorem runs_offerReceived (src : Addr) (k : Key) (b : Block) (m : Mask) (s : State) :
    Runs (.offerReceived src k b m) s (execOfferReceived src k b m s) :=
  .next .same ((Work.refl _).op_receiveFrame fun _ h => h.op_suppress.op_fetchOffer)

theorem runs_askReceived (src : Addr) (target : Byte) (k : Key) (b : Block) (m : Mask) (s : State) :
    Runs (.askReceived src target k b m) s (execAskReceived src target k b m s) :=
  .next .same ((Work.refl _).op_receiveFrame fun _ h => h.op_serveAsk)

theorem runs_segmentReceived (src : Addr) (k : Key) (b : Block) (g : Byte) (d : List Byte) (s : State) :
    Runs (.segmentReceived src k b g d) s (execSegmentReceived src k b g d s) :=
  .next .same ((Work.refl _).op_receiveFrame fun _ h => h.op_fetchSegment)

theorem runs_noticeReceived (src : Addr) (n : NoticeFrame) (s : State) :
    Runs (.noticeReceived src n) s (execNoticeReceived src n s) :=
  .settled .same ((Work.refl _).op_receiveFrame fun _ h => h.op_deliverNotice)

theorem runs_joinTimer (s : State) : Runs .joinTimer s (execJoinTimer s) := by
  unfold execJoinTimer
  split
  · rename_i n _ _
    refine .next .same (Work.op_submitNotice ?_)
    have h : Work s (elapse n s) := (Work.refl _).op_elapse
    exact h.step (.line { (elapse n s).line with joinLeft := some 1000 } _ (List.Sublist.refl _) (fun x => x) rfl
      (fun x => .inl x))
  · exact .refused

theorem runs_listenOnlyTimer (s : State) : Runs .listenOnlyTimer s (execListenOnlyTimer s) := by
  unfold execListenOnlyTimer
  split
  · rename_i n hl
    refine .next .same (Work.op_enterJoining (Work.refl _).op_elapse ?_)
    exact .inr (.inr (by simp [elapse, hl, ListenTimer.elapse]))
  · exact .refused

theorem runs_periodicTimer (s : State) : Runs .periodicTimer s (execPeriodicTimer s) := by
  unfold execPeriodicTimer
  split
  · exact .next .same (Work.op_submitNotice ((Work.refl _).op_elapse.op_noticeTimers rfl))
  · exact .refused

theorem runs_spacingTimer (s : State) : Runs .spacingTimer s (execSpacingTimer s) := by
  unfold execSpacingTimer
  split
  · split
    · exact .next .same (Work.refl _).op_elapse.op_submitIfDifferent
    · exact .refused
  · exact .refused

theorem runs_peerAgedOut (x : Addr) (s : State) : Runs (.peerAgedOut x) s (execPeerAgedOut x s) := by
  unfold execPeerAgedOut
  split
  · rename_i p _
    have h : Work s (elapse (6000 - p.heard) s) := (Work.refl _).op_elapse
    dsimp only
    generalize elapse (6000 - p.heard) s = t at h ⊢
    exact .next .same (h.op_setPeers fun h => h.filter _)
  · exact .refused

theorem runs_claimWindow (i : Fin 4) (s : State) : Runs (.claimWindow i) s (execClaimWindow i s) := by
  unfold execClaimWindow
  split
  · have h : Work s (elapse (ctxOf s i).claimLeft s) := (Work.refl _).op_elapse
    dsimp only
    generalize elapse (ctxOf s i).claimLeft s = t at h ⊢
    have h2 : Work s (addTally (ctxOf s i).asked t) := h.op_addTally
    generalize addTally (ctxOf s i).asked t = u at h2 ⊢
    have h3 : Work s (updateCtx i (fun c => { c with server := none }) u) :=
      h2.op_updateCtx (fun _ => rfl) (fun _ x => x) (fun _ => rfl)
    exact .next .same h3.op_enterAsking.op_fetchFollow
  · exact .refused

theorem runs_silenceTimer (i : Fin 4) (s : State) : Runs (.silenceTimer i) s (execSilenceTimer i s) := by
  unfold execSilenceTimer
  split
  · exact .next .same (Work.refl _).op_elapse.op_serveEnded.op_fetchFollow
  · exact .refused

theorem runs_deferralTimer (s : State) : Runs .deferralTimer s (execDeferralTimer s) := by
  unfold execDeferralTimer
  split
  · rename_i d _ _
    refine .next .same (Work.op_openContexts ?_)
    have h : Work s (elapse d.left s) := (Work.refl _).op_elapse
    refine h.step (.fetch { (elapse d.left s).fetch with deferral := (elapse d.left s).fetch.deferral.drop 1 } _ ?_)
    rintro ⟨h1, h2, h3, h4, h5⟩
    exact ⟨h1, h2, h3, h4, by simp at h5 ⊢; omega⟩
  · exact .refused

theorem runs_serveDelay (s : State) : Runs .serveDelay s (execServeDelay s) := by
  unfold execServeDelay
  split
  · exact .next .same (Work.refl _).op_elapse.op_enterOffering
  · exact .refused

theorem runs_transactionBegin (s : State) : Runs .transactionBegin s (execTransactionBegin s) := by
  unfold execTransactionBegin
  split
  · exact .refused
  · split
    · exact .next .same ((Work.refl _).step (.port { s.port with hcsLow := true, disregard := true } s rfl))
    · exact .next .same (Work.refl _).op_captureState

theorem runs_answerRead (n : Nat) (s : State) : Runs (.answerRead n) s (execAnswerRead n s) := by
  refine .next .same ?_
  split
  · exact (Work.refl _).op_releasePins
  · exact (Work.refl _).op_answerRead

theorem runs_badFrame (l : List Byte) (s : State) : Runs (.badFrame l) s (execBadFrame l s) := by
  unfold execBadFrame
  split
  · exact .next .same (Work.refl _).op_releasePins
  · split
    · exact .next .same (Work.refl _).op_endTransaction
    · split
      · exact .refused
      · split
        · exact .refused
        · refine .next .same ?_
          split
          · exact (Work.refl _).op_endTransaction
          · exact (Work.refl _).op_endTransaction.op_answer

theorem runs_frameIgnored (l : List Byte) (s : State) : Runs (.frameIgnored l) s (execFrameIgnored l s) := by
  unfold execFrameIgnored
  split
  · exact .next .same (Work.refl _).op_releasePins
  · split
    · exact .next .same (Work.refl _).op_endTransaction
    · exact .refused

theorem runs_hcsHighAfterReset (s : State) : Runs .hcsHighAfterReset s (execHcsHighAfterReset s) := by
  unfold execHcsHighAfterReset
  split
  · exact .refused
  · split
    · exact .next .same (Work.refl _).op_releasePins
    · exact .refused

theorem runs_deviceReset (x : ResetCause) (p : Straps) (l : Left) (s : State) :
    Runs (.deviceReset x p l) s (execDeviceReset x p l s) := by
  unfold execDeviceReset
  split
  · exact .next (.reset s.port _ l rfl rfl) (Work.refl _)
  · exact .refused

theorem runs_powerLoss (l : Left) (s : State) : Runs (.powerLoss l) s (execPowerLoss l s) := by
  unfold execPowerLoss
  split
  · exact .refused
  · split
    · exact .next (.reset s.port _ l rfl rfl) (Work.refl _)
    · exact .refused

theorem runs_startUpBegins (p : Straps) (s : State) : Runs (.startUpBegins p) s (execStartUpBegins p s) := by
  unfold execStartUpBegins
  split
  · rename_i h
    simp only [Bool.and_eq_true, decide_eq_true_eq] at h
    exact .next (.begins p rfl h.1) (Work.refl _)
  · exact .refused

theorem Work.op_voidedStoreFault (h : Work a s) : Work a (voidedStoreFault s) := by
  unfold voidedStoreFault
  split
  · exact h.op_raise
  · exact h

theorem Work.op_answerWaiting (h : Work a s) : Work a (answerWaiting s) := by
  unfold answerWaiting
  split
  · exact h.op_answer
  · exact h.op_answer
  · exact h

theorem runs_startUpReadsEnd (s : State) : Runs .startUpReadsEnd s (execStartUpReadsEnd s) := by
  unfold execStartUpReadsEnd
  split
  · rename_i h
    exact .settled (.handed h) (Work.refl _).op_voidedStoreFault.op_answerWaiting.op_rebuildFrom
  · exact .refused

theorem captured_port (s : State) : captured s = { s with port := (captured s).port } := by
  unfold captured captureState
  split <;> rfl

/-- A restart's transaction changes the host port alone, or ends in a device reset. -/
theorem hostCommand_restart (l : Params) (pins : Straps) (left : Left) (s : State) :
    (∃ p : HostPort, p.events = s.port.events ∧ hostCommand .restart l (restartBody pins left) s = { s with port := p }) ∨
      ∃ (p : HostPort) (q : Pins), hostCommand .restart l (restartBody pins left) s = deviceReset q (cutShort left { s with port := p }) := by
  unfold hostCommand
  split
  · exact .inl ⟨(releasePins s).port, rfl, rfl⟩
  · have he : (captured s).port.events = s.port.events := by unfold captured captureState; split <;> rfl
    have hc := captured_port s
    dsimp only
    have ht : endTransaction (3 + l.bytes.length + l.extra) [] s = { s with port := (endTransaction (3 + l.bytes.length + l.extra) [] s).port } := by
      unfold endTransaction; rw [hc]
    have hte : (endTransaction (3 + l.bytes.length + l.extra) [] s).port.events = s.port.events := he
    generalize hg : (endTransaction (3 + l.bytes.length + l.extra) [] s).port = p at ht hte
    rw [ht]
    split
    · exact .inl ⟨p, hte, rfl⟩
    · split
      · exact .inl ⟨(answer .badFrame [faultCode .length] { s with port := p }).port, hte, rfl⟩
      · unfold takeFrame
        dsimp only
        split
        · exact .inl ⟨{ p with state := .answered, answer := some { result := .notReady, payload := [] }, command := none },
            hte, rfl⟩
        · split
          · exact .inl ⟨{ p with state := .answered, answer := some { result := .badParam, payload := [] }, command := none },
              hte, rfl⟩
          · exact .inr ⟨_, _, rfl⟩

theorem runs_restart (l : Params) (pins : Straps) (left : Left) (s : State) :
    Runs (.restart l pins left) s (execRestart l pins left s) := by
  unfold execRestart
  split
  · exact .refused
  · rcases hostCommand_restart l pins left s with ⟨p, hp, e⟩ | ⟨p, q, e⟩
    · rw [e]; exact .settled .same ((Work.refl _).step (.port p s hp))
    · rw [e]; exact .settled (.reset p q left rfl rfl) (Work.refl _)

theorem runs_idReport (l : Params) (s : State) : Runs (.idReport l) s (execIdReport l s) :=
  .next .same ((Work.refl _).op_hostCommand fun _ h => h.op_idBody)

theorem runs_ident (l : Params) (s : State) : Runs (.ident l) s (execIdent l s) :=
  .next .same ((Work.refl _).op_hostCommand fun _ h => h.op_identBody)

theorem runs_stat (l : Params) (s : State) : Runs (.stat l) s (execStat l s) :=
  .next .same ((Work.refl _).op_hostCommand fun _ h => h.op_statBody)

theorem runs_slots (l : Params) (s : State) : Runs (.slots l) s (execSlots l s) :=
  .next .same ((Work.refl _).op_hostCommand fun _ h => h.op_slotsBody)

theorem runs_blocks (l : Params) (s : State) : Runs (.blocks l) s (execBlocks l s) :=
  .next .same ((Work.refl _).op_hostCommand fun _ h => h.op_blocksBody)

theorem runs_peers (l : Params) (s : State) : Runs (.peers l) s (execPeers l s) :=
  .next .same ((Work.refl _).op_hostCommand fun _ h => h.op_peersBody)

theorem runs_event (l : Params) (s : State) : Runs (.event l) s (execEvent l s) :=
  .next .same ((Work.refl _).op_hostCommand fun _ h => h.op_eventBody)

theorem runs_read (l : Params) (s : State) : Runs (.read l) s (execRead l s) :=
  .next .same ((Work.refl _).op_hostCommand fun _ h => h.op_readBody)

theorem runs_checksum (l : Params) (s : State) : Runs (.checksum l) s (execChecksum l s) :=
  .next .same ((Work.refl _).op_hostCommand fun _ h => h.op_checksumBody)

theorem runs_accept (l : Params) (s : State) : Runs (.accept l) s (execAccept l s) :=
  .settled .same ((Work.refl _).op_hostCommand fun _ h => h.op_acceptBody)

theorem runs_floor (l : Params) (s : State) : Runs (.floor l) s (execFloor l s) :=
  .settled .same ((Work.refl _).op_hostCommand fun _ h => h.op_floorBody)

theorem runs_loadBegin (l : Params) (s : State) : Runs (.loadBegin l) s (execLoadBegin l s) :=
  .settled .same ((Work.refl _).op_hostCommand fun _ h => h.op_loadBeginBody)

theorem runs_loadData (l : Params) (s : State) : Runs (.loadData l) s (execLoadData l s) :=
  .settled .same ((Work.refl _).op_hostCommand fun _ h => h.op_loadDataBody)

theorem runs_loadEnd (l : Params) (s : State) : Runs (.loadEnd l) s (execLoadEnd l s) :=
  .settled .same ((Work.refl _).op_hostCommand fun _ h => h.op_loadEndBody)

theorem runs_loadAbort (l : Params) (s : State) : Runs (.loadAbort l) s (execLoadAbort l s) :=
  .settled .same ((Work.refl _).op_hostCommand fun _ h => h.op_loadAbortBody)

theorem runs_publish (l : Params) (s : State) : Runs (.publish l) s (execPublish l s) :=
  .settled .same ((Work.refl _).op_hostCommand fun _ h => h.op_publishBody)

theorem runs_hold (l : Params) (s : State) : Runs (.hold l) s (execHold l s) :=
  .next .same ((Work.refl _).op_hostCommand fun _ h => h.op_holdBody)

theorem runs_resume (l : Params) (s : State) : Runs (.resume l) s (execResume l s) :=
  .next .same ((Work.refl _).op_hostCommand fun _ h => h.op_resumeBody)

theorem runs_wipe (l : Params) (s : State) : Runs (.wipe l) s (execWipe l s) :=
  .settled .same ((Work.refl _).op_hostCommand fun _ h => h.op_wipeBody)

/-- What a command can do: its next state is a run of small changes from one of its origins. -/
theorem exec_runs (c : Instr) (s : State) : Runs c s (exec c s) := by
  cases c with
  | deviceReset x0 x1 x2 => exact runs_deviceReset x0 x1 x2 s
  | powerLoss x0 => exact runs_powerLoss x0 s
  | startUpReadsEnd => exact runs_startUpReadsEnd s
  | eraseAttempt x0 => exact runs_eraseAttempt x0 s
  | spareEntryProgram x0 => exact runs_spareEntryProgram x0 s
  | programSegment x0 => exact runs_programSegment x0 s
  | verifyBlock => exact runs_verifyBlock s
  | readSegment => exact runs_readSegment s
  | readRange => exact runs_readRange s
  | checkBlock => exact runs_checkBlock s
  | setMark x0 => exact runs_setMark x0 s
  | appendRecord x0 => exact runs_appendRecord x0 s
  | overtime x0 => exact runs_overtime x0 s
  | lineIdle => exact runs_lineIdle s
  | contentionLost => exact runs_contentionLost s
  | bitError => exact runs_bitError s
  | attemptEnd x0 => exact runs_attemptEnd x0 s
  | frameDiscarded x0 x1 => exact runs_frameDiscarded x0 x1 s
  | clash => exact runs_clash s
  | releaseReceived x0 x1 x2 => exact runs_releaseReceived x0 x1 x2 s
  | offerReceived x0 x1 x2 x3 => exact runs_offerReceived x0 x1 x2 x3 s
  | askReceived x0 x1 x2 x3 x4 => exact runs_askReceived x0 x1 x2 x3 x4 s
  | segmentReceived x0 x1 x2 x3 x4 => exact runs_segmentReceived x0 x1 x2 x3 x4 s
  | noticeReceived x0 x1 => exact runs_noticeReceived x0 x1 s
  | joinTimer => exact runs_joinTimer s
  | listenOnlyTimer => exact runs_listenOnlyTimer s
  | periodicTimer => exact runs_periodicTimer s
  | spacingTimer => exact runs_spacingTimer s
  | peerAgedOut x0 => exact runs_peerAgedOut x0 s
  | claimWindow x0 => exact runs_claimWindow x0 s
  | silenceTimer x0 => exact runs_silenceTimer x0 s
  | deferralTimer => exact runs_deferralTimer s
  | serveDelay => exact runs_serveDelay s
  | transactionBegin => exact runs_transactionBegin s
  | answerRead x0 => exact runs_answerRead x0 s
  | badFrame x0 => exact runs_badFrame x0 s
  | frameIgnored x0 => exact runs_frameIgnored x0 s
  | idReport x0 => exact runs_idReport x0 s
  | ident x0 => exact runs_ident x0 s
  | stat x0 => exact runs_stat x0 s
  | slots x0 => exact runs_slots x0 s
  | blocks x0 => exact runs_blocks x0 s
  | peers x0 => exact runs_peers x0 s
  | event x0 => exact runs_event x0 s
  | read x0 => exact runs_read x0 s
  | checksum x0 => exact runs_checksum x0 s
  | accept x0 => exact runs_accept x0 s
  | floor x0 => exact runs_floor x0 s
  | loadBegin x0 => exact runs_loadBegin x0 s
  | loadData x0 => exact runs_loadData x0 s
  | loadEnd x0 => exact runs_loadEnd x0 s
  | loadAbort x0 => exact runs_loadAbort x0 s
  | publish x0 => exact runs_publish x0 s
  | hold x0 => exact runs_hold x0 s
  | resume x0 => exact runs_resume x0 s
  | wipe x0 => exact runs_wipe x0 s
  | restart x0 x1 x2 => exact runs_restart x0 x1 x2 s
  | startUpBegins x0 => exact runs_startUpBegins x0 s
  | hcsHighAfterReset => exact runs_hcsHighAfterReset s

end Sys2Proof.Machine
end

