-- ==== Sys2Proof/Laws/Settle.lean ====
section
/-! SUPPORT. The end of an event: when no job ends PROTECTED and no field of the NOTICE has changed, it adds nothing; and
what the arbiter's pick and the record work list change. -/

namespace Sys2Proof.Machine

/-- A job in service is none that waits to end with PROTECTED. -/
abbrev NotProtected (s : State) : Prop := ∀ v, s.flash.service = some v → v.op ≠ .protectedReturn

theorem drainProtected_eq {s : State} (h : NotProtected s) (n : Nat) : drainProtected n s = s := by
  cases n with
  | zero => rfl
  | succ n =>
    unfold drainProtected
    split
    · rename_i v hv; rw [if_neg (h v hv)]
    · rfl

theorem noticeWatch_eq {s t : State} (h : noticeContent s = noticeContent t) : noticeWatch s t = t :=
  if_pos (by simp [h])

/-- An event without PROTECTED result and without a changed NOTICE ends as it stands. -/
theorem settle_eq {s t : State} (hp : NotProtected t) (hn : noticeContent s = noticeContent t) : settle s t = t := by
  unfold settle
  rw [drainProtected_eq hp, noticeWatch_eq hn]

/-- The fields that a NOTICE shows (R90). -/
theorem noticeContent_congr {s t : State} (h1 : t.cat.activeState = s.cat.activeState)
    (h2 : (activeRec t).key = (activeRec s).key) (h3 : stagingRec t = stagingRec s)
    (h4 : t.cat.stagingState = s.cat.stagingState) (h5 : t.startUp.straps.serve = s.startUp.straps.serve)
    (h6 : t.line.link = s.line.link) : noticeContent s = noticeContent t := by
  unfold noticeContent announcedActive
  rw [h1, h2, h3, h4, h5, h6]

/-- A state that differs in the sequencer and the record work list alone. -/
def SequencerOnly (s t : State) : Prop :=
  t = { s with flash := t.flash, cat := { s.cat with work := t.cat.work } }

theorem SequencerOnly.refl (s : State) : SequencerOnly s s := rfl

theorem SequencerOnly.trans {s t u : State} (h : SequencerOnly s t) (k : SequencerOnly t u) : SequencerOnly s u := by
  unfold SequencerOnly at *
  rw [k, h]

theorem SequencerOnly.content {s t : State} (h : SequencerOnly s t) : noticeContent s = noticeContent t := by
  rw [h]
  unfold noticeContent announcedActive stagingRec activeRec stagingSlot
  cases s.cat.activeSlot <;> rfl

theorem pickJob_only (s : State) : SequencerOnly s (pickJob s) := by unfold pickJob; split <;> rfl

theorem submit_only (q : Queue) (j : Job) (s : State) : SequencerOnly s (submit q j s) := by
  unfold submit
  dsimp only
  split_ifs
  · exact SequencerOnly.trans (t := { s with flash := s.flash.setJobs q (s.flash.jobs q ++ [j]) }) rfl (pickJob_only _)
  · rfl
  · rfl

theorem pumpWork_only (n : Nat) (s : State) : SequencerOnly s (pumpWork n s) := by
  induction n generalizing s with
  | zero => rfl
  | succ n ih =>
    unfold pumpWork
    split
    · rfl
    · split
      · rename_i j js _ _
        exact SequencerOnly.trans (t := { s with cat := { s.cat with work := js } }) rfl ((submit_only ..).trans (ih _))
      · rfl

theorem addWork_only (j : Job) (s : State) : SequencerOnly s (addWork j s) :=
  SequencerOnly.trans (t := { s with cat := { s.cat with work := s.cat.work ++ [j] } }) rfl (pumpWork_only ..)

theorem endService_only (s : State) : SequencerOnly s (endService s) := (pickJob_only s).trans (pumpWork_only ..)

/-! ## Which job comes into service -/

theorem SequencerOnly.take {s t : State} (h : SequencerOnly s t) (j : Job) : (takeJob t j).op = (takeJob s j).op := by
  rw [h]
  cases j <;> rfl

theorem pick_mem {f g : Sequencer} {j : Job} (h : f.pick = some (j, g)) :
    j ∈ f.recordQ ++ f.fetchQ ++ f.serveQ ++ f.hostQ ∧
      ∀ k ∈ g.recordQ ++ g.fetchQ ++ g.serveQ ++ g.hostQ, k ∈ f.recordQ ++ f.fetchQ ++ f.serveQ ++ f.hostQ := by
  unfold Sequencer.pick Sequencer.pickServeHost at h
  repeat' split at h
  all_goals first
    | (cases h; done)
    | (cases h; simp_all; try tauto)

theorem pickJob_spares {s : State} (h : QueuesSpareActive s) :
    NotProtected (pickJob s) ∧ QueuesSpareActive (pickJob s) := by
  have ho := pickJob_only s
  unfold pickJob at ho ⊢
  split
  · refine ⟨fun v hv => (nomatch hv), fun j hj => ?_⟩
    have e : (takeJob { s with flash := { s.flash with service := none } } j).op = (takeJob s j).op := by cases j <;> rfl
    rw [e]; exact h j hj
  · rename_i j f hp
    obtain ⟨h1, h2⟩ := pick_mem hp
    refine ⟨fun v hv => ?_, fun k hk => ?_⟩
    · cases hv
      exact h j (by unfold waitingJobs; simp only [List.mem_append] at h1 ⊢; tauto)
    · have : k ∈ waitingJobs s := by
        unfold waitingJobs at hk ⊢
        simp only [List.mem_append] at hk h2 ⊢
        rcases hk with hk | hk
        · exact .inl (h2 k hk)
        · exact .inr hk
      have e := h k this
      have e2 : (takeJob { s with flash := { f with service := some (takeJob s j) } } k).op = (takeJob s k).op := by
        cases k <;> rfl
      rw [e2]; exact e

theorem submit_spares {s : State} {q : Queue} {j : Job} (hn : NotProtected s) (h : QueuesSpareActive s)
    (hj : (takeJob s j).op ≠ .protectedReturn) : NotProtected (submit q j s) ∧ QueuesSpareActive (submit q j s) := by
  have hq : QueuesSpareActive { s with flash := s.flash.setJobs q (s.flash.jobs q ++ [j]) } := by
    intro k hk
    have e2 : (takeJob { s with flash := s.flash.setJobs q (s.flash.jobs q ++ [j]) } k).op = (takeJob s k).op := by
      cases k <;> rfl
    rw [e2]
    have : k ∈ waitingJobs s ∨ k = j := by
      unfold waitingJobs at hk ⊢
      cases q <;> simp only [Sequencer.setJobs, Sequencer.jobs, List.mem_append, List.mem_singleton] at hk ⊢ <;> tauto
    rcases this with hk | rfl
    · exact h k hk
    · exact hj
  unfold submit
  dsimp only
  split_ifs
  · exact pickJob_spares hq
  · refine ⟨fun v hv => hn v ?_, hq⟩
    cases q <;> exact hv
  · exact ⟨hn, h⟩

theorem pumpWork_spares {s : State} (n : Nat) (hn : NotProtected s) (h : QueuesSpareActive s) :
    NotProtected (pumpWork n s) ∧ QueuesSpareActive (pumpWork n s) := by
  induction n generalizing s with
  | zero => exact ⟨hn, h⟩
  | succ n ih =>
    unfold pumpWork
    split
    · exact ⟨hn, h⟩
    · rename_i j js hw
      split
      · have e (k : Job) : (takeJob { s with cat := { s.cat with work := js } } k).op = (takeJob s k).op := by cases k <;> rfl
        have hm (k : Job) (hk : k ∈ waitingJobs { s with cat := { s.cat with work := js } }) : k ∈ waitingJobs s := by
          unfold waitingJobs at hk ⊢
          simp only [List.mem_append, hw, List.mem_cons] at hk ⊢
          tauto
        have hj : j ∈ waitingJobs s := by unfold waitingJobs; simp [hw]
        obtain ⟨a, b⟩ := submit_spares (s := { s with cat := { s.cat with work := js } }) (q := .record) (j := j) hn
          (fun k hk => by rw [e]; exact h k (hm k hk)) (by rw [e]; exact h j hj)
        exact ih a b
      · exact ⟨hn, h⟩

/-- With no waiting job that names the active slot, the end of a service takes none. -/
theorem endService_spares {s : State} (h : QueuesSpareActive s) :
    NotProtected (endService s) ∧ QueuesSpareActive (endService s) := by
  obtain ⟨a, b⟩ := pickJob_spares h
  exact pumpWork_spares 8 a b

/-- The end of a service, when no waiting job names the active slot, ends its event. -/
theorem settle_endService {s t : State} (h : QueuesSpareActive t) (hn : noticeContent s = noticeContent t) :
    settle s (endService t) = endService t :=
  settle_eq (endService_spares h).1 (hn.trans (endService_only t).content)

end Sys2Proof.Machine
end

