-- ==== Sys2Proof/Tests/Slice0.lean ====
section
/-! SUPPORT. Tests: ill-formed commands are refused, the manual's check values and worked figures, small steps with the results
the manual gives, and, for each statement with hypotheses, a state and operands that meet them. -/

namespace Sys2Proof.Tests

set_option Elab.async false

open Sys2Proof Sys2Proof.Machine

/-! ## Ill-formed commands -/

/-- An array operation leaves at most the 2,048 bytes of a unit (R1). -/
theorem test_illFormed_left : (Instr.eraseAttempt (.worn (List.replicate 2049 0))).wellFormed = false ∧
    (Instr.powerLoss (.cut (List.replicate 2049 0))).wellFormed = false ∧
    (Instr.eraseAttempt (.worn (List.replicate 2048 0))).wellFormed = true := by decide +kernel

/-- A frame's source address is 1 to 126 (R72). -/
theorem test_illFormed_source : (Instr.releaseReceived 0 Key.noneForm 1).wellFormed = false ∧
    (Instr.releaseReceived 127 Key.noneForm 1).wellFormed = false ∧
    (Instr.noticeReceived 0 ⟨Key.noneForm, Key.noneForm, 0, 0, 0⟩).wellFormed = false ∧
    (Instr.peerAgedOut 127).wellFormed = false ∧ (Instr.releaseReceived 126 Key.noneForm 1).wellFormed = true := by decide +kernel

/-- The mask of an OFFER or ASK is not zero, and an ASK's target is 0 to 126 (R72). -/
theorem test_illFormed_mask : (Instr.offerReceived 1 Key.noneForm 0 0).wellFormed = false ∧
    (Instr.askReceived 1 0 Key.noneForm 0 0).wellFormed = false ∧
    (Instr.askReceived 1 127 Key.noneForm 0 1).wellFormed = false ∧
    (Instr.askReceived 1 126 Key.noneForm 0 1).wellFormed = true := by decide +kernel

/-- A SEGMENT's index is 0 to 15 and its data 128 bytes (R72). -/
theorem test_illFormed_segment : (Instr.segmentReceived 1 Key.noneForm 0 16 (List.replicate 128 0)).wellFormed = false ∧
    (Instr.segmentReceived 1 Key.noneForm 0 15 (List.replicate 127 0)).wellFormed = false ∧
    (Instr.segmentReceived 1 Key.noneForm 0 15 (List.replicate 128 0)).wellFormed = true := by decide +kernel

/-- A discarded frame has bits, and a command transaction no first byte F0h; a transaction may end before its first complete
byte (R151, R153). -/
theorem test_illFormed_transaction : (Instr.frameDiscarded [] true).wellFormed = false ∧
    (Instr.badFrame [0xF0, 1]).wellFormed = false ∧ (Instr.frameIgnored [0xF0]).wellFormed = false ∧
    (Instr.answerRead 0).wellFormed = true ∧ (Instr.badFrame []).wellFormed = true ∧
    (Instr.frameIgnored []).wellFormed = true := by decide +kernel

/-- A parameter field has at most 140 bytes (R154). -/
theorem test_illFormed_params : (Instr.loadData ⟨List.replicate 141 0, 0⟩).wellFormed = false ∧
    (Instr.restart ⟨List.replicate 141 0, 0⟩ boardStraps .expected).wellFormed = false ∧
    (Instr.loadData ⟨List.replicate 140 0, 7⟩).wellFormed = true := by decide +kernel

/-! ## Check values and layouts -/

/-- The bytes 31h to 39h. -/
def nine : List Byte := [0x31, 0x32, 0x33, 0x34, 0x35, 0x36, 0x37, 0x38, 0x39]

/-- The manual's check values of the three codes (R214 to R216). -/
theorem test_checkValues : crc16 (nine.flatMap msbFirst) = 0x29B1 ∧ crc32 nine = 0xCBF43926 ∧ crc8 nine = 0xF4 := by
  decide +kernel

/-- The manual's STAT frame (R154, R216). -/
theorem test_statFrame : commandFrame .stat [] = [0x10, 0x00, 0x57] := by decide +kernel

/-- The claim values of the manual's contention example: 168, 268 and 389 (R71). -/
theorem test_claimValues : bitsNat (claimBits 1 40) = 168 ∧ bitsNat (claimBits 2 12) = 268 ∧ bitsNat (claimBits 3 5) = 389 := by
  decide +kernel

/-- A mark is one 0 at bit b mod 8 of byte b div 8 (R14, R35). -/
theorem test_markPattern : (markPattern 9).getD 1 0 = 0xFD ∧ (markPattern 9).getD 0 0 = 0xFF ∧ (markPattern 9).length = 128 := by
  decide +kernel

/-- A fault is looked for in the order LENGTH, SHORT, CHECK, CODE (R156). -/
theorem test_faultOrder : frameFault [0x10, 0x8D] = some .length ∧ frameFault [0x10] = some .short ∧
    frameFault [0x10, 0x00, 0x58] = some .check ∧ frameFault [0xFF, 0x00, crc8 [0xFF, 0x00]] = some .code ∧
    frameFault [0x10, 0x00, 0x57] = none := by decide +kernel

/-- The three readings of the node part (R7). -/
theorem test_nodeReading : nodeReading [0xFF, 0xFF, 0xFF, 0xFF] = .blank ∧ nodeReading [0x12, 0x34, 0xED, 0xCB] = .configured ∧
    nodeReading [0x12, 0x34, 0xED, 0xCC] = .spoiled ∧ nodeReading [0, 0, 0xFF, 0xFF] = .spoiled := by decide +kernel

/-- No word spells a command: the table gives no row any bits. -/
theorem test_noWordSpells : decodeTableWord 8 0x10 = none := rfl

/-! ## States the tests start from -/

/-- The key of the active slot. -/
def keyA : Key := { family := 0x1234, version := 5, digest := 0xA1A2A3A4 }

/-- The key of the staging slot. -/
def keyB : Key := { family := 0x1234, version := 6, digest := 0xB1B2B3B4 }

/-- A newer key. -/
def keyC : Key := { family := 0x1234, version := 9, digest := 0xC1C2C3C4 }

/-- A key of another family. -/
def keyX : Key := { family := 0x4321, version := 9, digest := 1 }

/-- A slot record of one data block, with the states of blocks 0 and 1. -/
def slotWith (k : Key) (b0 b1 : BlockState) : SlotRecord :=
  { key := some k, count := some 1, checks := [7], blocks := ((Vector.replicate 256 .unused).set 0 b0).set 1 b1 }

/-- A RUNNING station 12 in ACTIVE that serves: slot A is active and holds `keyA`, slot B is staging. -/
def live (staging : StagingState) (b0 b1 : BlockState) : State :=
  { State.reset with
    startUp := { State.reset.startUp with
      stage := .running
      straps := { address := 12, rate := 3, serve := true }
      reading := .configured
      family := some 0x1234 }
    cat := { Catalogue.reset with
      slotA := slotWith keyA .verified .verified
      slotB := slotWith keyB b0 b1
      activeSlot := .a
      activeState := .present
      stagingState := staging
      recorded := { CommitRecord.cleared with seq := 3 }
      highSeq := 3
      nextPos := 3 }
    line := { LineController.reset with link := .active } }

/-- A state with a job in service at an array operation. -/
def serving (j : Job) (op : Op) (s : State) : State :=
  { s with flash := { s.flash with service := some { job := j, op := op, orphan := false, resolved := none } } }

/-- A state with a link state. -/
def linked (l : LinkState) (s : State) : State := { s with line := { s.line with link := l } }

/-- A state with a transmit queue. -/
def queued (q : List TxEntry) (s : State) : State := { s with line := { s.line with queue := q } }

/-- A state with a fetch context. -/
def context (i : Fin 4) (c : Ctx) (s : State) : State := { s with fetch := { s.fetch with ctxs := s.fetch.ctxs.set i c } }

/-- A context in a state, on block 1. -/
def ctxIn (st : CtxState) : Ctx := { Ctx.cleared with state := st, block := 1, key := keyB, wanted := 0xFFFF, tries := 1 }

/-- A command in progress. -/
def commanded (c : Command) (s : State) : State := { s with port := { s.port with state := .taken, command := some c } }

/-- A NOTICE entry and a RELEASE entry on the line. -/
def noticeEntry (on : Bool) : TxEntry :=
  { frame := .notice ⟨Key.noneForm, Key.noneForm, 0, 0, 0⟩, owner := .noticeUnit, attempts := 0, onLine := on, live := true }

def releaseEntry (attempts : Nat) : TxEntry :=
  { frame := .release keyA 1, owner := .catalogue, attempts := attempts, onLine := true, live := true }

theorem np_idle {s : State} (h : s.flash.service = none) : NothingProtected s := fun v hv => by rw [h] at hv; cases hv

theorem np_busy {s : State} {v : Service} (h : s.flash.service = some v) (o : v.op ≠ .protectedReturn) :
    NothingProtected s := fun w hw => by rw [h] at hw; cases hw; exact o

/-! ## States and operands that meet the hypotheses of the statements -/

theorem test_meets_StepRunsFrontCommand :
    (State.reset.withPending [.lineIdle]).pending = .lineIdle :: [] ∧ State.reset.pending = [] := ⟨rfl, rfl⟩

theorem test_meets_CommandKeepsQueueAndPins :
    exec .transactionBegin State.reset = .next (captureState State.reset) ∧ movesPins .transactionBegin = false := ⟨rfl, rfl⟩

theorem test_meets_OnlyArrayCommandsWrite :
    exec .transactionBegin State.reset = .next (captureState State.reset) ∧ writesArray .transactionBegin = false := ⟨rfl, rfl⟩

/-- A part that erases a block of the staging slot. -/
def erasing (n : Nat) : State := serving (.eraseUnit .host .b 1) (.erase n) (live .loading .blank .erasing)

theorem test_meets_ActiveSlotUntouched : (∃ t, exec (.eraseAttempt .expected) (erasing 0) = .next t) ∧
    Memory.wf (erasing 0).mem ∧ ∀ v, (erasing 0).flash.service = some v → sparesActive (erasing 0) v = true :=
  ⟨⟨_, rfl⟩, reset_wf, (fun v h => by cases h; rfl)⟩
where reset_wf : Memory.wf [] := ⟨List.Pairwise.nil, nofun⟩

theorem test_meets_kept : (∃ t, step State.reset = .next t) ∧ MemoryForm State.reset ∧ EventsLegal State.reset ∧
    RequestQueuesFit State.reset.flash ∧ TransmitQueueFits State.reset.line ∧ Bounded State.reset ∧
    LinkLegal State.reset ∧ NothingProtected State.reset :=
  ⟨⟨_, rfl⟩, ⟨List.Pairwise.nil, nofun⟩, by decide +kernel, by decide +kernel, by decide +kernel, by decide +kernel,
    by decide +kernel, np_idle rfl⟩

/-- A part whose serve read ends with free buffers, beside which jobs wait for the fetch engine and the host. -/
def afterRead (fetch host : List Job) : State :=
  let s := serving (.readSegment .a 1 2 .ob0) .main (live .complete .verified .verified)
  { s with flash := { s.flash with fetchQ := fetch, hostQ := host } }

theorem test_meets_ProtectedJobsEnd : ActiveSpared State.reset ∧ AtRest State.reset ∧ ActiveSpared (erasing 0) ∧
    AtRest (erasing 0) :=
  ⟨(fun v h => by cases h), (fun _ => ⟨rfl, rfl, rfl, rfl, rfl, rfl⟩), (fun v h => by cases h; decide),
    (fun h => absurd h (by decide))⟩

theorem test_meets_ProtectedJobsEnd_taken : bufOf (afterRead [.eraseUnit (.fetch 0) .a 1] []) .ob0 = .free ∧
    guardedSlot (.eraseUnit (.fetch 0) .a 1) = some (live .complete .verified .verified).cat.activeSlot ∧
    isJobOf 0 (.eraseUnit (.fetch 0) .a 1) = true ∧
    guardedSlot (.programSegment (.fetch 3) .a 1 15 []) = some .a ∧ isJobOf 3 (.programSegment (.fetch 3) .a 1 15 []) = true ∧
    gateOpen (afterRead [.eraseUnit (.fetch 0) .a 1] []) = false ∧
    (afterRead [] [.eraseUnit .wipe .a 255]).flash.recordQ = [] ∧
    (afterRead [] [.eraseUnit .wipe .a 255]).flash.serveQ = [] ∧
    (afterRead [] [.eraseUnit .wipe .a 255]).cat.work = [] := by decide +kernel

theorem test_meets_CommandFrameReadsBack : (List.replicate 140 (0 : Byte)).length ≤ 140 := by decide +kernel

theorem test_meets_LineFrameReadsBack : legalSource 126 = true ∧ legalSource 1 = true ∧ (126 : Addr) ≠ 127 ∧ (1 : Mask) ≠ 0 ∧
    (List.replicate 128 (0 : Byte)).length = 128 := by decide +kernel

theorem test_meets_ControlUnitsReadBack : recordWellFormed { CommitRecord.cleared with seq := 0xFFFFFFFE } = true ∧
    recordWellFormed ⟨1, some .b, some keyA, some keyB, .retired, 2, 5⟩ = true := by decide +kernel

theorem test_meets_EraseAttemptContent : Memory.wf (erasing 2).mem ∧
    (erasing 2).flash.service = some ⟨.eraseUnit .host .b 1, .erase 2, false, none⟩ ∧
    Job.eraseUnit .host .b 1 ≠ .eraseControl .c0 := ⟨⟨List.Pairwise.nil, nofun⟩, rfl, by decide⟩

/-- A part that programs a segment of a staging block. -/
def programming (req : Requester) : State :=
  serving (.programSegment req .b 1 15 (List.replicate 128 0)) .main (live .loading .blank .filling)

/-- A segment whose cells keep every bit. -/
def nothingCleared : Left := .cut (List.replicate 128 0xFF)

theorem test_meets_FailedAttemptsRetire :
    blankCheck (eraseLeaving (erasing 1).mem 257 (.worn [0])) 257 = false ∧
    eraseTarget (erasing 1) (.eraseUnit .host .b 1) = 257 ∧ blockOf (.eraseUnit .host .b 1) = some (.b, 1) ∧
    nextSpare (erasing 2).flash.spares = some 0 ∧
    readBackMatches [] (operationLeaves (programming .host) ⟨.programSegment .host .b 1 15 (List.replicate 128 0), .main, false,
      none⟩ nothingCleared) 257 (128 * 15) (List.replicate 128 0) = false ∧
    nextSpare (programming .host).flash.spares = some 0 := by decide +kernel

/-- A part that erases control unit C2 at the third attempt. -/
def erasingControl : State := serving (.eraseControl .c2) (.erase 2) (live .fetching .verified .verified)

theorem test_meets_FailedAttemptsRetire_control : eraseTarget erasingControl (.eraseControl .c2) = 514 ∧
    blankCheck (eraseLeaving erasingControl.mem 514 (.worn [0])) 514 = false ∧ NoWipe erasingControl :=
  ⟨rfl, by decide +kernel, nofun⟩

/-- No spare is left. -/
def spareless (s : State) : State := { s with flash := { s.flash with spares := Vector.replicate 8 .void } }

theorem test_meets_LastSpareGoneEndsDead : nextSpare (spareless (erasing 2)).flash.spares = none ∧
    blankCheck (eraseLeaving (spareless (erasing 2)).mem 257 (.worn [0])) 257 = false ∧
    QueuesSpareActive (spareless (erasing 2)) ∧ stagingBlock (spareless (erasing 2)) 1 = .erasing := by decide +kernel

/-- A part that programs a spare map entry. -/
def retiring : State := serving (.eraseUnit .host .b 1) (.entry 0) (live .loading .blank .erasing)

/-- The service of `retiring`. -/
def retiringJob : Service := ⟨.eraseUnit .host .b 1, .entry 0, false, none⟩

theorem test_meets_SpareEntryOutcome : retiring.flash.service = some retiringJob ∧
    entryLeftLegal retiring retiringJob .expected = true ∧
    readBytes (operationLeaves retiring retiringJob .expected) (unitAddr 513 0) 8 = spareEntryBytes .b 1 0 ∧
    entryLeftLegal retiring retiringJob (.worn [0]) = true ∧
    readBytes (operationLeaves retiring retiringJob (.worn [0])) (unitAddr 513 0) 8 ≠ spareEntryBytes .b 1 0 ∧
    nextSpare (retiring.flash.spares.set (0 : Fin 8) .void) = some 1 := by decide +kernel

theorem test_meets_SpareEntryOutcome_wf : Memory.wf retiring.mem := ⟨List.Pairwise.nil, nofun⟩

/-- The service of `programming`. -/
def programmingJob (req : Requester) : Service := ⟨.programSegment req .b 1 15 (List.replicate 128 0), .main, false, none⟩

theorem test_meets_SegmentProgramContent : Memory.wf (programming .host).mem ∧
    (programming .host).flash.service = some (programmingJob .host) := ⟨⟨List.Pairwise.nil, nofun⟩, rfl⟩

theorem test_meets_LoadDataSegmentDone : (programming .host).flash.service = some (programmingJob .host) ∧
    readBackMatches [] (operationLeaves (programming .host) (programmingJob .host) .expected) 257 (128 * 15)
      (List.replicate 128 0) = true ∧ QueuesSpareActive (programming .host) := by decide +kernel

/-- A part that programs the first buffer of context 0. -/
def fetching : State := context 0 { ctxIn .receiving with buffers := [(15, List.replicate 128 0), (3, [])], job := .program }
  (programming (.fetch 0))

theorem test_meets_FetchSegmentDone : fetching.flash.service = some (programmingJob (.fetch 0)) ∧
    readBackMatches [] (operationLeaves fetching (programmingJob (.fetch 0)) .expected) 257 (128 * 15)
      (List.replicate 128 0) = true ∧ QueuesSpareActive fetching ∧ (ctxOf fetching 0).state = .receiving ∧
    (ctxOf fetching 0).buffers ≠ [] := by decide +kernel

/-- A part that programs the node part of C0. -/
def identing : State := commanded (.ident 0x1234) (serving (.programNode 0x1234) .main (live .empty .unknown .unknown))

theorem test_meets_NodeProgramEndsIdent : identing.flash.service = some ⟨.programNode 0x1234, .main, false, none⟩ ∧
    QueuesSpareActive identing ∧
    readBackMatches [] (operationLeaves identing ⟨.programNode 0x1234, .main, false, none⟩ .expected) 512 128
      (nodeBytes 0x1234) = true := by decide +kernel

theorem test_meets_SetMarkClearsOneBit :
    (serving (.setMark .b 255) .main (live .fetching .verified .verified)).flash.service = some ⟨.setMark .b 255, .main, false, none⟩ ∧
    Memory.wf (serving (.setMark .b 255) .main (live .fetching .verified .verified)).mem := ⟨rfl, List.Pairwise.nil, nofun⟩

/-- A part that sets the mark of block 255. -/
def marking : State := serving (.setMark .b 255) .main (live .fetching .verified .verified)

theorem test_meets_SetMarkClearsOneBit_ends : NoWipe marking ∧ running marking = true ∧
    interruptedLegal marking ⟨.setMark .b 255, .main, false, none⟩ nothingCleared = true ∧
    readBackMatches [] (operationLeaves marking ⟨.setMark .b 255, .main, false, none⟩ nothingCleared)
      (controlNumber (marksRow .b)) 0 (markPattern 255) = false := ⟨nofun, rfl, by decide +kernel, by decide +kernel⟩

/-- The record of the switch from `live .complete`. -/
def switchRecord : CommitRecord :=
  { CommitRecord.cleared with
    seq := 4, active := some .b, activeKey := some keyB, stagingKey := some keyA, role := .retired }

/-- A part that appends the record of a switch. -/
def switching (revert : Bool) : State :=
  let s := live .switching .verified .verified
  commanded .accept (serving (.appendRecord .c2 31 (.record switchRecord)) .main
    { s with cat := { s.cat with procedure := .switch revert } })

/-- The service of `switching`. -/
def switchingJob : Service := ⟨.appendRecord .c2 31 (.record switchRecord), .main, false, none⟩

theorem test_meets_AppendWritesRecord : (switching false).flash.service = some switchingJob ∧
    recordAt (switching false).mem .c2 31 = List.replicate 64 erasedByte ∧ (31 : Nat) < 32 := by decide +kernel

theorem test_meets_AppendWritesRecord_noWipe : NoWipe (switching false) ∧ Memory.wf (switching false).mem :=
  ⟨(fun _ _ h => by cases h), List.Pairwise.nil, nofun⟩

/-- The record of `switchRecord`, laid out by hand from the table of R10, with its check value. -/
def switchBytes : List Byte :=
  [0x00, 0x00, 0x00, 0x04, 0x02, 0x02, 0x12, 0x34, 0x00, 0x06, 0xB1, 0xB2, 0xB3, 0xB4,
    0x12, 0x34, 0x00, 0x05, 0xA1, 0xA2, 0xA3, 0xA4] ++
    List.replicate 38 0 ++ [0xF6, 0x91, 0x38, 0x26]

theorem test_recordBytes : recordBytes switchRecord = switchBytes := by decide +kernel

theorem test_meets_AppendWritesRecord_failed :
    recordAt (operationLeaves (switching false) switchingJob nothingCleared) .c2 31 ≠ recordBytes switchRecord := by
  rw [test_recordBytes]
  decide +kernel

theorem test_meets_SwitchSwapsRoles_readsBack :
    recordAt (operationLeaves (switching true) switchingJob .expected) .c2 31 = recordBytes switchRecord := by
  show recordAt (programLeaving [] 514 1920 (segmentPattern 64 (recordBytes switchRecord)) .expected) .c2 31 = _
  rw [test_recordBytes]
  have h := readBytes_programLeaving (m := []) ⟨List.Pairwise.nil, nofun⟩ 514 1920 (segmentPattern 64 switchBytes) .expected
  rw [show (segmentPattern 64 switchBytes).length = 64 + 64 by decide +kernel] at h
  show readBytes _ (unitAddr 514 1920 + 64) 64 = _
  rw [readBytes_drop, h]
  decide +kernel

theorem test_meets_SwitchSwapsRoles : (switching true).flash.service = some switchingJob ∧
    (switching true).cat.procedure = .switch true ∧ (switching true).cat.target = none ∧
    ∀ j ∈ waitingJobs (switching true), blockOf j = none := by decide +kernel

/-- A part that verifies block 1 for context 0. -/
def verifying (want : BitVec 32) : State :=
  context 0 { ctxIn .verifying with programmed := 0xFFFF, job := .verify }
    (serving (.verifyBlock (.fetch 0) .b 1 (.check want) none) .main (live .fetching .verified .verifying))

theorem test_meets_VerifyDecidesBlock : (verifying 7).flash.service =
      some ⟨.verifyBlock (.fetch 0) (stagingSlot (verifying 7)) 1 (.check 7) none, .main, false, none⟩ ∧
    stagingBlock (verifying 7) 1 = .verifying ∧ QueuesSpareActive (verifying 7) ∧
    (judgeContent (.check 7) (unitBytes [] 257)).1 = false ∧
    (judgeContent (.check 0x3F55D17F) (unitBytes [] 257)).1 = true := by decide +kernel

/-- A part that reads a segment to serve. -/
def servingRead : State :=
  let s := live .fetching .verified .verified
  serving (.readSegment .a 1 2 .ob0) .main { s with serve := { s.serve with ob0 := .reading keyA 1 2 true } }

theorem test_meets_ReadSegmentQueuesFrame : servingRead.flash.service = some ⟨.readSegment .a 1 2 .ob0, .main, false, none⟩ ∧
    bufOf servingRead .ob0 = .reading keyA 1 2 true ∧ QueuesSpareActive servingRead ∧
    txAnswer servingRead.line (.segment keyA 1 2 (segmentBytes servingRead.mem 1 2)) = .accepted := by decide +kernel

/-- A part with a host read in service. -/
def hostReading (j : Job) (readable : Bool) (c : Command) : State :=
  let s := commanded c (live .fetching .verified .verified)
  { s with flash := { s.flash with service := some ⟨j, .main, false, some ⟨.a, 5, .check 7, readable⟩⟩ } }

theorem test_meets_ReadsAnswerHost : QueuesSpareActive (hostReading (.readRange .active 1 2047 1) true .read) ∧
    QueuesSpareActive (hostReading (.readRange .active 1 0 256) false .read) ∧
    QueuesSpareActive (hostReading (.checkBlock .active 1) true (.checksum .active 0 2 [⟨.isMatch, 5, 0⟩])) ∧
    (hostReading (.checkBlock .active 1) true (.checksum .active 0 2 [⟨.isMatch, 5, 0⟩])).port.command =
      some (.checksum .active 0 2 [⟨.isMatch, 5, 0⟩]) ∧ [(⟨.isMatch, 5, 0⟩ : CheckLine)].length + 1 = 2 := by decide +kernel

theorem test_meets_OvertimeFails : (erasing 1).flash.service = some ⟨.eraseUnit .host .b 1, .erase 1, false, none⟩ ∧
    retiring.flash.service = some retiringJob ∧ interruptedLegal retiring retiringJob (.cut [0]) = true ∧
    nextSpare (retiring.flash.spares.set (0 : Fin 8) .void) = some 1 ∧
    (programming .host).flash.service = some (programmingJob .host) ∧
    interruptedLegal (programming .host) (programmingJob .host) nothingCleared = true ∧
    nextSpare (programming .host).flash.spares = some 0 ∧
    QueuesSpareActive (hostReading (.readRange .active 1 2047 1) true .read) := by decide +kernel

theorem test_meets_LineIdleChooses : onLineEntry (live .fetching .verified .blank) = none ∧
    (∀ e ∈ (queued [releaseEntry 0] (linked .joining State.reset)).line.queue, linkAllows .joining e = false) ∧
    onLineEntry (queued [noticeEntry false, { releaseEntry 0 with onLine := false }] (live .empty .unknown .unknown)) = none ∧
    linkAllows .active (releaseEntry 0) = true ∧
    (∀ x ∈ [noticeEntry false, { releaseEntry 0 with onLine := false }], linkAllows .active x = true →
      frameClass (releaseEntry 0).frame ≤ frameClass x.frame) ∧
    ∀ x ∈ [noticeEntry false], frameClass x.frame ≠ frameClass (releaseEntry 0).frame := by decide +kernel

/-- A station whose NOTICE waits and whose RELEASE is on the line. -/
def sending (attempts : Nat) : State :=
  commanded .publish (queued ([noticeEntry false] ++ releaseEntry attempts :: []) (live .complete .verified .verified))

theorem test_meets_FailedSendKeepsEntry : (sending 1).line.queue = [noticeEntry false] ++ releaseEntry 1 :: [] ∧
    (∀ x ∈ [noticeEntry false] ++ ([] : List TxEntry), x.onLine = false) ∧ (releaseEntry 1).live = true ∧
    linkSends (sending 1).line.link = true ∧ (sending 1).line.echoMiss < 15 ∧ (sending 1).notice.owed = false := by decide +kernel

theorem test_meets_FailedSendKeepsEntry_idle : NothingProtected (sending 1) := np_idle rfl

theorem test_meets_ReleaseReportAnswersPublish : (sending 2).line.queue = [noticeEntry false] ++ releaseEntry 2 :: [] ∧
    (releaseEntry 2).owner = .catalogue ∧ (sending 2).port.command = some .publish ∧
    linkSends (sending 2).line.link = true ∧ (releaseEntry 2).attempts = 2 ∧ (sending 2).line.echoMiss < 15 := by decide +kernel

/-- An entry on the line, live or given up by its producer. -/
def lineEntry (frame : Frame) (owner : Owner) (attempts : Nat) (live : Bool) : TxEntry :=
  { frame := frame, owner := owner, attempts := attempts, onLine := true, live := live }

/-- A station whose NOTICE waits behind an entry on the line. -/
def behindNotice (e : TxEntry) (s : State) : State := queued ([noticeEntry false] ++ e :: []) s

/-- The ASK of context 0 and its context, in ASKING. -/
def askEntry (attempts : Nat) : TxEntry := lineEntry (.ask 5 keyB 1 0xFFFF) (.fetch 0) attempts true

def asking (attempts : Nat) : State :=
  context 0 { ctxIn .asking with asked := 5, askQueued := true }
    (behindNotice (askEntry attempts) (live .fetching .verified .blank))

theorem test_meets_FailedSendKeepsEntry_ask : (asking 1).line.queue = [noticeEntry false] ++ askEntry 1 :: [] ∧
    (askEntry 1).owner = .fetch 0 ∧ (ctxOf (asking 1) 0).state = .asking ∧ (ctxOf (asking 1) 0).askQueued = true ∧
    linkSends (asking 1).line.link = true ∧ (asking 1).line.echoMiss < 15 := by decide +kernel

/-- A SEGMENT whose serve entry is SENDING its last segment, or has been cancelled. -/
def segmentEntry (attempts : Nat) (live : Bool) : TxEntry :=
  lineEntry (.segment keyA 1 8 (List.replicate 128 0)) (.serveBuffer .ob0) attempts live

def serveQueued (q : List ServeEntry) (s : State) : State := { s with serve := { s.serve with queue := q } }

def sendingSegment (attempts : Nat) (live : Bool) : State :=
  let s := behindNotice (segmentEntry attempts live) (setBuf .ob0 (.frame keyA 1 8 (List.replicate 128 0) live)
    (Tests.live .complete .verified .verified))
  if live then serveQueued [ServeEntry.mk keyA 1 0x0100 .sending 0 false 0x0100 16] s else s

theorem test_meets_FailedSendKeepsEntry_cancelled :
    (sendingSegment 0 false).line.queue = [noticeEntry false] ++ segmentEntry 0 false :: [] ∧
    16 ≤ (sendingEntry (sendingSegment 0 false)).elim 16 ServeEntry.nextIndex := by decide +kernel

/-- The OFFER of an entry that is OFFERING. -/
def offerEntry (attempts : Nat) : TxEntry := lineEntry (.offer keyA 1 0x0101) .serveOffer attempts true

def offering (attempts : Nat) : State :=
  serveQueued [ServeEntry.mk keyA 1 0x0101 .offering 0 true 0x0101 16]
    (behindNotice (offerEntry attempts) (live .complete .verified .verified))

theorem test_meets_ReleaseReportAnswersPublish_ask : (asking 2).line.queue = [noticeEntry false] ++ askEntry 2 :: [] ∧
    (askEntry 2).attempts = 2 ∧ (askEntry 2).frame = .ask 5 keyB 1 0xFFFF ∧ (ctxOf (asking 2) 0).state = .asking ∧
    (ctxOf (asking 2) 0).tries < 5 := by decide +kernel

theorem test_meets_ReleaseReportAnswersPublish_offer :
    (offering 2).line.queue = [noticeEntry false] ++ offerEntry 2 :: [] ∧
    (findEntry (offering 2) keyA 1).isSome = true ∧ (∀ x ∈ (offering 2).serve.queue, x.state ≠ .sending) ∧
    holderOf (offering 2) keyA = some .a ∧ (slotRec (offering 2) .a).blocks[1] = .verified ∧
    hasSeg 0x0101 0 = true ∧ (∀ h < (0 : Seg), hasSeg 0x0101 h = false) ∧ (offering 2).serve.ob0 = .free := by decide +kernel

theorem test_meets_ReleaseReportAnswersPublish_segment :
    (sendingSegment 2 true).line.queue = [noticeEntry false] ++ segmentEntry 2 true :: [] ∧
    sendingEntry (sendingSegment 2 true) = some (ServeEntry.mk keyA 1 0x0100 .sending 0 false 0x0100 16) ∧
    (∀ j, j ≠ OutBufId.ob0 → (bufOf (sendingSegment 2 true) j).heldFor keyA 1 = false) :=
  ⟨rfl, rfl, (fun j h => by cases j <;> first | rfl | exact absurd rfl h)⟩

theorem test_meets_ReleaseReportAnswersPublish_idle : NothingProtected (sending 2) ∧ NothingProtected (asking 2) ∧
    NothingProtected (offering 2) ∧ NothingProtected (sendingSegment 2 true) :=
  ⟨np_idle rfl, np_idle rfl, np_idle rfl, np_idle rfl⟩

/-- A JOINING station whose NOTICE is on the line. -/
def joining : State := queued [noticeEntry true] (linked .joining (live .empty .unknown .unknown))

theorem test_meets_EchoedNoticeJoins : joining.line.queue = [] ++ noticeEntry true :: [] ∧ (noticeEntry true).onLine = true ∧
    joining.line.link = .joining ∧ (noticeEntry true).owner = .noticeUnit ∧
    (∀ x ∈ [{ releaseEntry 0 with onLine := false }], x.onLine = false ∧ frameClass x.frame ≠ 4) := by decide +kernel

theorem test_meets_EchoedNoticeJoins_idle : NothingProtected joining := np_idle rfl

theorem test_meets_SixteenthMissListens : ({ joining.line with echoMiss := 15 } : LineController).queue = [] ++ noticeEntry true :: [] ∧
    linkSends joining.line.link = true ∧ NothingProtected { joining with line := { joining.line with echoMiss := 15 } } :=
  ⟨rfl, rfl, np_idle rfl⟩

theorem test_meets_OwnAddressClashes : joining.line.link ≠ .offline ∧ joining.line.link ≠ .clash ∧
    (linked .clash joining).line.link = .clash := by decide +kernel

theorem test_meets_UnheardFramesChangeNothing : receiveBits (List.replicate 7 false) = .insertionViolation ∧
    receiveBits (frameBits 5 (.release keyA 1)) = .good 0 5 (keyBytes keyA ++ [1]) ∧ joining.line.link ≠ .offline ∧
    State.reset.line.link = .offline := by decide +kernel

theorem test_meets_UnheardFramesChangeNothing_idle : NothingProtected State.reset := np_idle rfl

/-- The staging slot FETCHING, with the block of index 1 in a state. -/
def listening (b1 : BlockState) : State := live .fetching .verified b1

theorem test_meets_ForeignFrameOnlyTouched : Heard (listening .blank) 5 ∧ ofFamily (listening .blank) keyX = false ∧
    noticeOfFamily (listening .blank) ⟨keyX, Key.noneForm, 0, 0, 0⟩ = false ∧ (1 : Mask) ≠ 0 ∧ (126 : Byte).toNat ≤ 126 ∧
    (15 : Byte).toNat ≤ 15 := by decide +kernel

theorem test_meets_idle (b1 : BlockState) : NothingProtected (listening b1) := np_idle rfl

/-- A peer at an address. -/
def peerAt (a : Addr) : Peer := { Peer.fresh a with heard := 40 }

/-- A full peer table, addresses 20 to 43. -/
def fullTable : List Peer := (List.range 24).map (fun i => { peerAt (BitVec.ofNat 7 (20 + i)) with heard := i })

theorem test_meets_TouchKeepsPeers : (∃ p ∈ [peerAt 5], p.addr = 5) ∧ (∀ p ∈ fullTable.take 23, p.addr ≠ 5) ∧
    (fullTable.take 23).length < 24 ∧ (∀ p ∈ fullTable, p.addr ≠ 5) ∧ 24 ≤ fullTable.length := by decide +kernel

/-- A station at an address. -/
def stationAt (a : Addr) (s : State) : State :=
  { s with startUp := { s.startUp with straps := { s.startUp.straps with address := a } } }

/-- A state with a serve queue of 8 entries. -/
def busyServer : State :=
  let s := listening .blank
  { s with serve := { s.serve with queue := (List.range 8).map (fun i =>
    { key := keyA, block := Fin.ofNat 256 (100 + i), mask := 1, state := .waiting, delayLeft := 5, offerQueued := false,
      offered := 0, nextIndex := 16 }) } }

theorem test_meets_AskMakesEntry : Heard (listening .blank) 5 ∧ ofFamily (listening .blank) keyA = true ∧
    askEligible (listening .blank) 13 keyA 1 = false ∧ askEligible (listening .blank) 0 keyA 1 = true ∧
    findEntry (listening .blank) keyA 1 = none ∧ (listening .blank).serve.queue.length < 8 ∧
    serveDelay (listening .blank) ≠ 0 ∧ Heard (stationAt 8 (listening .blank)) 5 ∧
    askEligible (stationAt 8 (listening .blank)) 8 keyA 1 = true ∧ serveDelay (stationAt 8 (listening .blank)) = 0 ∧
    Heard busyServer 5 ∧ askEligible busyServer 12 keyA 1 = true ∧ findEntry busyServer keyA 1 = none ∧
    8 ≤ busyServer.serve.queue.length := by decide +kernel

theorem test_meets_OfferTakesContext : Heard (context 3 (ctxIn .asking) (listening .blank)) 5 ∧
    ofFamily (context 3 (ctxIn .asking) (listening .blank)) keyB = true ∧
    (ctxOf (context 3 (ctxIn .asking) (listening .blank)) 3).counts keyB 1 0x8000 = true ∧
    (ctxOf (context 3 (ctxIn .receiving) (listening .blank)) 3).counts keyB 1 0x8000 = true := by decide +kernel

/-- A context that receives. -/
def receiving : State := context 3 { ctxIn .receiving with endIndex := some 15, silenceLeft := 20 } (listening .blank)

theorem test_meets_SegmentTakesBuffer : Heard receiving 5 ∧ ofFamily receiving keyB = true ∧ receiverOf receiving 1 = some 3 ∧
    (stagingRec receiving).key = some keyB ∧ hasSeg (ctxOf receiving 3).wanted 0 = true ∧
    hasSeg (ctxOf receiving 3).programmed 0 = false ∧ (∀ x ∈ (ctxOf receiving 3).buffers, x.1 ≠ 0) ∧
    (ctxOf receiving 3).state = .receiving ∧ (ctxOf receiving 3).endIndex ≠ some 0 ∧ 0 < receiving.fetch.poolFree ∧
    receiverOf { receiving with fetch := { receiving.fetch with poolFree := 0, poolInFlight := 24 } } 1 = some 3 := by decide +kernel

theorem test_meets_NoticeRefreshesPeer : Heard (listening .blank) 5 ∧
    noticeOfFamily (listening .blank) ⟨keyA, Key.noneForm, 8, 0, 0⟩ = true ∧
    noticeWellFormed ⟨keyA, Key.noneForm, 8, 0, 0⟩ = false ∧
    noticeWellFormed ⟨keyA, keyB, 1, 1, 3⟩ = true ∧
    (∀ k ∈ noticeCandidates ⟨keyA, keyB, 1, 1, 3⟩, k ∈ heldKeys (listening .blank)) ∧
    noticeOfFamily (listening .blank) ⟨keyC, Key.noneForm, 0, 0, 2⟩ = true ∧
    noticeWellFormed ⟨keyC, Key.noneForm, 0, 0, 2⟩ = true ∧
    ∃ k ∈ noticeCandidates ⟨keyC, Key.noneForm, 0, 0, 2⟩, k ∉ heldKeys (listening .blank) := by decide +kernel

theorem test_meets_ReleaseStartsReclaim : Heard (listening .blank) 5 ∧ running (listening .blank) = true ∧
    (listening .blank).cat.frozen = false ∧ keyC ∉ heldKeys (listening .blank) ∧
    (∀ h ∈ heldKeys (listening .blank), h.version ≠ keyC.version) ∧ candidateNewer (listening .blank) keyC = true ∧
    (listening .blank).cat.procedure = .none ∧ (listening .blank).cat.stagingState = .fetching ∧
    (listening .blank).cat.highSeq < 0xFFFFFFFE ∧ (∀ j ∈ (listening .blank).cat.work, blockOf j = none) ∧
    { keyA with digest := 1 } ∉ heldKeys (listening .blank) ∧
    ∃ h ∈ heldKeys (listening .blank), h.version = ({ keyA with digest := 1 } : Key).version := by decide +kernel

/-- A state whose notice unit has a spacing time, a periodic time and a change flag. -/
def noticing (last : Option NoticeFrame) (s : State) : State :=
  { s with notice := { s.notice with spacing := some 100, periodicLeft := some 1900, changed := true, last := last } }

theorem test_meets_TimersSubmitNotice : ({ joining.line with joinLeft := some 300 } : LineController).link = .joining ∧
    (∃ e ∈ joining.line.queue, frameClass e.frame = 4 ∧ e.onLine = true) ∧
    (∀ e ∈ [noticeEntry false], frameClass e.frame = 4 → e.onLine = false) ∧
    (noticing none (listening .blank)).line.link = .active ∧
    (noticing none (listening .blank)).notice.periodicLeft = some 1900 ∧
    (noticing none (listening .blank)).notice.last ≠ some (noticeContent (noticing none (listening .blank))) ∧
    (noticing (some (noticeContent (listening .blank))) (listening .blank)).notice.last =
      some (noticeContent (noticing (some (noticeContent (listening .blank))) (listening .blank))) := by decide +kernel

theorem test_meets_TimersSubmitNotice_owed :
    (∃ e ∈ (queued [noticeEntry true] (noticing none (listening .blank))).line.queue, frameClass e.frame = 4 ∧ e.onLine = true) ∧
    (queued [noticeEntry true] (noticing none (listening .blank))).notice.periodicLeft = some 1900 ∧
    (queued [noticeEntry true] (noticing none (listening .blank))).notice.spacing = some 100 ∧
    (queued [noticeEntry true] (noticing none (listening .blank))).notice.changed = true := by decide +kernel

theorem test_meets_ListenOnlyEnds : ({ LineController.reset with link := .listenOnly, listen := .running 5000 } : LineController).listen
      = .running 5000 ∧ ({ LineController.reset with link := .listenOnly, listen := .held } : LineController).listen = .held := by decide +kernel

/-- A state with a peer table. -/
def peered (ps : List Peer) (s : State) : State := { s with notice := { s.notice with peers := ps } }

theorem test_meets_SilentPeerForgotten : findPeer (peered [peerAt 4, peerAt 5] (listening .blank)) 5 = some (peerAt 5) := by decide +kernel

theorem test_meets_FetchTimers :
    (ctxOf (context 3 { ctxIn .claiming with asked := 5 } (listening .blank)) 3).state = .claiming ∧
    (ctxOf (context 3 { ctxIn .claiming with tries := 4 } (listening .blank)) 3).tries < 5 ∧
    5 ≤ (ctxOf (context 3 { ctxIn .claiming with tries := 5 } (listening .blank)) 3).tries ∧
    (ctxOf (context 3 { ctxIn .receiving with buffers := [(0, [])] } (listening .blank)) 3).buffers ≠ [] ∧
    (ctxOf (context 3 { ctxIn .receiving with programmed := 0xFFFF } (listening .blank)) 3).programmed = 0xFFFF ∧
    (ctxOf receiving 3).buffers = [] ∧ (ctxOf receiving 3).job = .none ∧ (ctxOf receiving 3).programmed ≠ 0xFFFF ∧
    ({ FetchEngine.reset with deferral := [⟨1, 9⟩] } : FetchEngine).deferral = ⟨1, 9⟩ :: [] := by decide +kernel

/-- A serve entry. -/
def entryFor (b : Block) (st : ServeState) : ServeEntry := ServeEntry.mk keyA b 0x0101 st 12 false 0 16

theorem test_meets_DelayedEntryOffers : (entryFor 1 .waiting).state = .waiting ∧
    (∀ x ∈ [entryFor 0 .offering], x.state ≠ .waiting) ∧
    (∀ x ∈ [entryFor 0 .offering] ++ [entryFor 2 .waiting], x.isFor keyA 1 = false) ∧
    (∀ x ∈ [entryFor 2 .waiting], x.state ≠ .sending ∧ x.offerQueued = false) ∧
    txAnswer (listening .blank).line (.offer keyA 1 0x0101) = .accepted := by decide +kernel

/-- A port whose transaction began with an answer in its store. -/
def answered : State :=
  let s := answer .ok [1, 2] (listening .blank)
  { s with port := { s.port with hcsLow := true, capState := .answered } }

theorem test_meets_TransactionsKeepProtocol : State.reset.port.hcsLow = false ∧ State.reset.startUp.stage ≠ .held ∧
    (State.afterReset .held ⟨false, false, boardStraps⟩ [] false).startUp.stage = .held ∧
    (State.afterReset .held ⟨false, false, boardStraps⟩ [] true).port.disregard = true ∧
    (State.afterReset .held ⟨false, false, boardStraps⟩ [] true).port.hcsLow = true ∧
    portClosed answered = false ∧ answered.port.hcsLow = true ∧ answered.port.capState = .answered ∧
    answered.port.answer = some ⟨.ok, [1, 2]⟩ := by decide +kernel

theorem test_meets_FaultyFramesAnswered : portClosed (listening .blank) = false ∧
    frameFault [0x10, 0x00, 0x58] = some .check ∧ (listening .blank).port.state ≠ .taken ∧
    portClosed (commanded .read (listening .blank)) = false ∧ (commanded .read (listening .blank)).port.state = .taken := by decide +kernel

theorem test_meets_CommandsJudged : portClosed (listening .blank) = false ∧ running (listening .blank) = true ∧
    (List.replicate 140 (0 : Byte)).length ≤ 140 ∧
    portClosed { listening .blank with startUp := { (listening .blank).startUp with stage := .rebuilding } } = false ∧
    running { listening .blank with startUp := { (listening .blank).startUp with stage := .rebuilding } } = false ∧
    (commanded .read (listening .blank)).port.state = .taken := by decide +kernel

theorem test_meets_ReportsAnswer : PortReady (listening .blank) ∧ PortReady State.reset ∧
    State.reset.startUp.stage = .reading ∧ (10 : Byte).toNat ≤ 10 ∧ roleParam 2 = some .staging ∧
    (255 : Byte).toNat + ((0 : Byte) ++ (1 : Byte)).toNat ≤ 256 ∧ (23 : Byte).toNat ≤ 23 := by decide +kernel

/-- A part that IDENT can configure. -/
def unconfigured : State :=
  let s := linked .offline (live .empty .unknown .unknown)
  { s with startUp := { s.startUp with reading := .blank, family := none } }

theorem test_meets_JobCommandsSubmit : PortRuns (listening .blank) ∧ SequencerIdle (listening .blank) ∧
    ((7 : Byte) ++ (255 : Byte)).toNat + ((0 : Byte) ++ (1 : Byte)).toNat ≤ 2048 ∧
    2048 < ((8 : Byte) ++ (0 : Byte)).toNat + ((0 : Byte) ++ (1 : Byte)).toNat ∧
    (224 : Byte).toNat + (32 : Byte).toNat ≤ 256 ∧ legalFamily ((0xFF : Byte) ++ (0xFE : Byte)) = true ∧
    legalFamily ((0xFF : Byte) ++ (0xFF : Byte)) = false ∧ PortRuns unconfigured ∧ SequencerIdle unconfigured ∧
    unconfigured.startUp.reading = .blank ∧ unconfigured.port.identSubmitted = false ∧
    (listening .blank).startUp.reading ≠ .blank := by decide +kernel

/-- A state with a recorded floor. -/
def floored (f : BitVec 16) (s : State) : State :=
  { s with cat := { s.cat with recorded := { s.cat.recorded with floor := f } } }

theorem test_meets_SwitchAndFloorStart : PortRuns (live .complete .verified .verified) ∧
    (∀ j ∈ (live .complete .verified .verified).cat.work, blockOf j = none) ∧
    versionOf (stagingRec (live .complete .verified .verified)).key = 6 ∧
    (live .complete .verified .verified).cat.highSeq < 0xFFFFFFFE ∧
    (stagingRec (live .retired .verified .verified)).whole = true ∧
    (6 : BitVec 16) < (floored 7 (live .retired .verified .verified)).cat.recorded.floor ∧
    (5 : BitVec 16) ≤ activeVersion (floored 5 (listening .blank)) ∧
    (floored 4 (listening .blank)).cat.recorded.floor < (5 : BitVec 16) ∧
    activeVersion (listening .blank) < (6 : BitVec 16) := by decide +kernel

/-- The last sequence number has been used. -/
def exhausted : State :=
  let s := floored 4 (listening .blank)
  { s with cat := { s.cat with highSeq := 0xFFFFFFFE } }

theorem test_meets_AppendWritesRecord_exhausted : PortRuns exhausted ∧ exhausted.cat.frozen = false ∧
    exhausted.cat.procedure = .none ∧ exhausted.cat.stagingState = .fetching ∧ exhausted.cat.recorded.floor < (5 : BitVec 16) ∧
    (5 : BitVec 16) ≤ activeVersion exhausted ∧ 0xFFFFFFFE ≤ exhausted.cat.highSeq := by decide +kernel

theorem test_meets_AppendWritesRecord_exhaustedIdle : NothingProtected exhausted := np_idle rfl

theorem test_meets_SwitchAndFloorStart_idle : NothingProtected (live .complete .verified .verified) := np_idle rfl

/-- A LOADING part. -/
def loading (b1 : BlockState) : State := live .loading .filling b1

theorem test_meets_LoadingTakesSegments : PortRuns (listening .blank) ∧ (listening .blank).startUp.family ≠ none ∧
    (listening .blank).cat.stagingState ≠ .loading ∧ PortRuns (loading .blank) ∧ SequencerIdle (loading .blank) ∧
    stagingBlock (loading .blank) (1 : Byte).toFin = .blank ∧ hasSeg (loadMask (loading .blank) (1 : Byte).toFin) 15 = false ∧
    stagingBlock (loading .dead) (1 : Byte).toFin = .dead ∧
    hasSeg (loadMask (setLoadMask 1 0x8000 (loading .filling)) (1 : Byte).toFin) 15 = true := by decide +kernel

theorem test_meets_LoadingTakesSegments_idle (b1 : BlockState) : NothingProtected (loading b1) := np_idle rfl

/-- A load record whose block 0 holds a manifest of a version, with one data block and an image of one byte. -/
def loadedWith (version : BitVec 16) (s : State) : State :=
  let bytes := bytes16 0x1234 ++ bytes16 version ++ bytes32 1 ++ bytes32 1 ++ bytes32 7 ++ bytes32 9
  setLoad { LoadRecord.cleared with
    copy := LoadRecord.cleared.copy.set 0 (some (bytes ++ List.replicate 108 0xFF)) } s

theorem test_meets_LoadingEnds : PortRuns (loading .filling) ∧ (loading .filling).cat.procedure = .none ∧
    loadedManifest (loading .filling).port.load = none ∧
    (loadedManifest (loadedWith 6 (loading .filling)).port.load).isSome = true ∧
    ((loadedManifest (loadedWith 6 (loading .filling)).port.load).map fun m =>
      ofFamily (loading .filling) (loadedKey (loadedWith 6 (loading .filling)).port.load m)) = some true ∧
    ((loadedManifest (loadedWith 6 (loading .filling)).port.load).map fun m =>
      (loadedKey (loadedWith 6 (loading .filling)).port.load m).version) = some 6 ∧
    ((loadedManifest (loadedWith 5 (loading .filling)).port.load).map fun m =>
      (loadedKey (loadedWith 5 (loading .filling)).port.load m).version) = some 5 ∧
    activeVersion (loading .filling) = 5 ∧
    stagingBlock (loadedWith 6 (loading .filling)) 0 = .filling ∧ SequencerIdle (loadedWith 6 (loading .filling)) ∧
    (loading .filling).cat.target = none := by decide +kernel

theorem test_meets_PublishAndHold : PortRuns (listening .blank) ∧ roleParam 1 = some .active ∧
    publishable (listening .blank) .staging = false ∧ publishable (listening .blank) .active = true ∧
    (slotRec (listening .blank) (roleSlot (listening .blank) .active)).key = some keyA ∧
    linkSends (linked .clash (listening .blank)).line.link = false ∧ linkSends (listening .blank).line.link = true ∧
    classCount (listening .blank).line.queue 0 = 0 := by decide +kernel

/-- A context in ASKING whose ASK waits. -/
def askWaits : State :=
  context 0 { ctxIn .asking with askQueued := true } (queued [{ askEntry 0 with onLine := false }] (listening .blank))

theorem test_meets_PublishAndHold_asking : PortRuns askWaits ∧ (ctxOf askWaits 0).state = .asking ∧
    (ctxOf askWaits 0).askQueued = true := by decide +kernel

theorem test_meets_PublishAndHold_idle : NothingProtected (listening .blank) ∧ NothingProtected askWaits :=
  ⟨np_idle rfl, np_idle rfl⟩

theorem test_meets_WipeAndRestart : PortRuns (listening .blank) ∧ cutLegal .expected (listening .blank) = true ∧
    linkSends (listening .blank).line.link = true ∧ PortRuns (linked .listenOnly (listening .blank)) ∧
    PortRuns marking ∧ recordInService marking = true ∧ PortRuns servingRead ∧ recordInService servingRead = false := by
  decide +kernel

theorem test_meets_WipeAndRestart_busy : NothingProtected marking ∧ NothingProtected servingRead :=
  ⟨np_busy rfl (by decide), np_busy rfl (by decide)⟩

theorem test_meets_ResetsClearState : cutLegal .expected (erasing 0) = true ∧ (erasing 0).pins.power = true ∧
    (State.afterReset .held ⟨true, true, boardStraps⟩ [] false).startUp.stage = .held := by decide +kernel

/-- The array of a part with a family and a ruling record. -/
def written : List Host.Cell :=
  ([0x12, 0x34, 0xED, 0xCB] : List Byte).zipIdx.map (fun x => (1048704 + x.2, x.1)) ++
    switchBytes.zipIdx.map (fun x => (1052672 + x.2, x.1))

theorem test_written_first : recordAt written .c2 0 = switchBytes := by decide +kernel

theorem test_switchBytes_read : recordReading switchBytes = .valid switchRecord := by decide +kernel

theorem test_written_rest : (List.range 31).map (fun q => recordReading (recordAt written .c2 (q + 1))) =
    List.replicate 31 .erased := by decide +kernel

theorem test_written_other : readPositions written .c3 = List.replicate 32 .erased := by decide +kernel

theorem test_rulingRecord : rulingRecord written = some (.c2, switchRecord) := by
  have h : readPositions written .c2 = .valid switchRecord :: List.replicate 31 .erased := by
    rw [readPositions, List.range_succ_eq_map (n := 31), List.map_cons, List.map_map, test_written_first,
      test_switchBytes_read]
    exact congrArg _ test_written_rest
  unfold rulingRecord
  rw [h, test_written_other]
  decide +kernel

theorem test_meets_StartUpReadsHandOver : State.reset.startUp.stage = .reading ∧ State.reset.port.command = none ∧
    rulingRecord [] = none ∧
    voidedUnit [] = none ∧ nodeReading (readNode written) = .configured ∧
    legalSource State.reset.startUp.straps.address = true ∧ LinkLegal State.reset := by decide +kernel

/-! ## Single steps, with the results the manual gives -/

/-- A command answers a next state that a property holds of. -/
def gives (c : Instr) (s : State) (p : State → Bool) : Bool :=
  match exec c s with
  | .next t => p t
  | _ => false

/-- A RELEASE of a newer key of the family starts a reclaim (R56, R57, R59). -/
theorem test_release_reclaims : gives (.releaseReceived 5 keyC 1) (listening .blank) (fun t =>
    t.cat.stagingState = .reclaiming && (stagingRec t).key = some keyC && (activeRec t).key = some keyA) = true := by
  decide +kernel

/-- A RELEASE of another version that is not newer changes nothing but the peer table (R56). -/
theorem test_release_older : gives (.releaseReceived 5 { keyC with version := 4 } 1) (listening .blank) (fun t =>
    t.cat.stagingState = .fetching && t.notice.peers.length = 1) = true := by decide +kernel

/-- An ASK for the active block waits 3 ms for each station number mod 8 of station 12 (R139). -/
theorem test_ask_waits : gives (.askReceived 5 0 keyA 1 1) (listening .blank) (fun t =>
    t.serve.queue.map (fun e => (e.state, e.delayLeft)) = [(.waiting, 12)]) = true := by decide +kernel

/-- A part in JOINING whose NOTICE is echoed is ACTIVE (R86). -/
theorem test_echo_joins : gives (.attemptEnd true) joining (fun t => t.line.link = .active) = true := by decide +kernel

/-- The NOTICE that a joined station owes carries its new content, so its ACCEPTED submission leaves no change behind (R92, R93). -/
theorem test_echo_joins_owed : gives (.attemptEnd true) { joining with notice := { joining.notice with owed := true, spacing := some 40 } }
    (fun t => t.line.link = .active && !t.notice.changed && !t.notice.owed && t.line.queue.length = 1) = true := by decide +kernel

/-- A frame of another station is echoed in ACTIVE and not in LISTEN-ONLY, whatever its delimiter reads (R75, R84). -/
theorem test_echo_driven :
    gives (.releaseReceived 5 keyX 1) (listening .blank) (fun t => t.line.echoDriven) = true ∧
    gives (.frameDiscarded (frameBits 5 (.release keyA 1)) true) (listening .blank) (fun t => t.line.echoDriven) = true ∧
    gives (.releaseReceived 5 keyX 1) (linked .listenOnly (listening .blank)) (fun t => !t.line.echoDriven) = true ∧
    gives .clash (listening .blank) (fun t => !t.line.echoDriven) = true := by decide +kernel

/-- A frame abandoned at its seventh recessive bit leaves an idle count of 7, one at its seventh dominant bit 0, and one at a
length byte of 139 its last two recessive bits; a frame read to its delimiter leaves 0 (R69, R70, R72). -/
theorem test_idle_after_discard :
    gives (.frameDiscarded (false :: List.replicate 7 true) false) (listening .blank) (fun t => t.line.idleCount = 7) = true ∧
    gives (.frameDiscarded (List.replicate 7 false) false) (listening .blank) (fun t => t.line.idleCount = 0) = true ∧
    gives (.frameDiscarded ([false, false, false, true, false, false, false, false, true, false, true] ++
      [true, false, false, false, true, false, true, true]) false) (listening .blank) (fun t => t.line.idleCount = 2) = true ∧
    gives (.frameDiscarded (frameBits 5 (.release keyA 1)) true) (listening .blank) (fun t => t.line.idleCount = 0) = true := by
  decide +kernel

/-- A part that programs FFh and 00h over bytes that read 00h and FFh. -/
def reprogramming : State :=
  { serving (.programSegment .host .b 1 15 (0xFF :: List.replicate 127 0)) .main (live .loading .blank .filling) with
    mem := [⟨528256, 0⟩] }

/-- A program cut short raises no bit and clears none that its pattern keeps (R40). -/
theorem test_cut_program : cutLegal (.worn [0x01]) reprogramming = false ∧
    cutLegal (.worn [0x00, 0x55]) reprogramming = true ∧ cutLegal nothingCleared reprogramming = true ∧
    cutLegal (.worn [0x00]) (serving (.programSegment .host .b 1 15 (List.replicate 128 0xFF)) .main reprogramming) = true ∧
    cutLegal (.worn [0xFF, 0x7F]) (serving (.programSegment .host .b 1 15 (List.replicate 128 0xFF)) .main
      (live .loading .blank .filling)) = false := by decide +kernel

/-- A program stopped at its overtime limit leaves no content that R40 excludes (R19, R40). -/
theorem test_overtime_content :
    (match exec (.overtime ⟨.worn [0x01], boardStraps⟩) reprogramming with
      | .refused .notAsReported => true
      | _ => false) = true ∧
    gives (.overtime ⟨nothingCleared, boardStraps⟩) reprogramming (fun t => t.port.events.length = 1) = true := by decide +kernel

/-- Within one millisecond, stations 20 to 43 are heard, then 20 again: station 5 takes the place of 21 (R96). -/
theorem test_evicts_first_heard :
    ((touched 5 (touched 20 ((List.range 24).foldl (fun ps i => touched (BitVec.ofNat 7 (20 + i)) ps) []))).map Peer.addr) =
      20 :: (List.range 22).map (fun i => BitVec.ofNat 7 (22 + i)) ++ [5] := by decide +kernel

/-- A received OFFER's fields stand at their offsets: key 0, block 8, mask 9 (R212). -/
theorem test_offer_fields : payloadCommand 1 5 [0x12, 0x34, 0x00, 0x06, 0xB1, 0xB2, 0xB3, 0xB4, 0xC8, 0x80, 0x01] =
    some (.offerReceived 5 keyB 200 0x8001) := by decide +kernel

/-- Bytes clocked after the check byte of a taken frame are disregarded, with HDO at FFh (R151, R153). -/
theorem test_extra_bytes : gives (.hold ⟨[], 2⟩) (listening .blank) (fun t =>
    t.fetch.hold && t.port.answer = some ⟨.ok, []⟩ && t.port.hdo.drop 2 = [0xFF, 0xFF, 0xFF]) = true := by decide +kernel

/-- A part that voids the last position of WIPE. -/
def wiping : State :=
  let s := serving (.appendRecord .c3 31 .voided) .main (live .empty .unknown .unknown)
  { s with cat := { s.cat with procedure := .wipe (.void 63) true } }

/-- The device reset that ends WIPE samples the straps as they are then (R193, R210). -/
theorem test_wipe_samples_straps : gives (.appendRecord ⟨.expected, ⟨77, 1, false⟩⟩) wiping (fun t =>
    t.startUp.stage = .reading && t.startUp.straps.address = 77) = true := by decide +kernel

/-- LOAD DATA of a block that is not erased starts its erase, and of a BLANK one its program (R182). -/
theorem test_loadData : gives (.loadData ⟨1 :: 15 :: List.replicate 128 0, 0⟩) (loading .unknown) (fun t =>
      stagingBlock t 1 = .erasing) = true ∧
    gives (.loadData ⟨1 :: 15 :: List.replicate 128 0, 0⟩) (loading .blank) (fun t => stagingBlock t 1 = .filling) = true := by
  decide +kernel

/-- FLOOR above the active version is refused, and at the recorded floor it is done at once (R179). -/
theorem test_floor :
    gives (.floor ⟨[0, 6], 0⟩) (listening .blank) (fun t => t.port.answer = some ⟨.refusedFloor, [0, 0]⟩) = true ∧
    gives (.floor ⟨[0, 0], 0⟩) (listening .blank) (fun t => t.port.answer = some ⟨.ok, [0, 0]⟩) = true := by decide +kernel

/-- An erase attempt that fails a third time goes to the spare map, and one that leaves FFh lets LOAD DATA's program follow (R26, R27, R183). -/
theorem test_erase : gives (.eraseAttempt (.worn [0])) (erasing 2) (fun t =>
      (t.flash.service.map Service.op) = some (.entry 0)) = true ∧
    gives (.eraseAttempt .expected) (commanded (.loadData 1 15 (List.replicate 128 0)) (erasing 2)) (fun t =>
      (t.flash.service.map Service.job) = some (.programSegment .host .b 1 15 (List.replicate 128 0)) &&
      stagingBlock t 1 = .filling) = true := by decide +kernel

/-- A read of an answer that stops short leaves it in the store (R160). -/
theorem test_answerRead : gives (.answerRead 7) answered (fun t => t.port.answer = some ⟨.ok, [1, 2]⟩) = true ∧
    gives (.answerRead 20) answered (fun t => t.port.answer = none && t.port.state = .idle) = true := by decide +kernel

end Sys2Proof.Tests
end

section
/-! SUPPORT. What the end of a record job keeps. Two relations say what an operation leaves alone: `RecordsKept` for FROZEN, the
recorded view and the absence of record jobs, `Calm` for the events and the start-up unit as well. Every operation that a record
job's result runs through is shown to keep one of them, PROTECTED returns and the notice unit's watch at the end of the event
included. -/

namespace Sys2Proof.Machine

/-- No record job waits, in the record queue or on the record work list (R20, R50). -/
def NoRecordJobs (s : State) : Prop := s.flash.recordQ = [] ∧ s.cat.work = []

/-- FROZEN and the recorded view stay, no WIPE begins, and where no record job waits none is added (R49, R50, R54, R207). -/
structure RecordsKept (s t : State) : Prop where
  frozen : t.cat.frozen = s.cat.frozen
  recorded : t.cat.recorded = s.cat.recorded
  noWipe : NoWipe s → NoWipe t
  noJobs : NoRecordJobs s → NoRecordJobs t

/-- Beside the records, the events raised and the start-up unit stay (R162, R192). -/
structure Calm (s t : State) : Prop extends RecordsKept s t where
  events : t.port.events = s.port.events
  startUp : t.startUp = s.startUp

variable {a s t : State}

theorem RecordsKept.trans {u : State} (h : RecordsKept s t) (k : RecordsKept t u) : RecordsKept s u :=
  ⟨k.frozen.trans h.frozen, k.recorded.trans h.recorded, k.noWipe ∘ h.noWipe, k.noJobs ∘ h.noJobs⟩

theorem Calm.refl (s : State) : Calm s s := ⟨⟨rfl, rfl, id, id⟩, rfl, rfl⟩

theorem Calm.trans {u : State} (h : Calm s t) (k : Calm t u) : Calm s u :=
  ⟨h.toRecordsKept.trans k.toRecordsKept, k.events.trans h.events, k.startUp.trans h.startUp⟩

/-- A change of the catalogue that leaves FROZEN, the recorded view, the work list and the procedure, with the record queue, the
events and the start-up unit as they were. -/
theorem Calm.of_fields (hf : t.cat.frozen = s.cat.frozen) (hr : t.cat.recorded = s.cat.recorded)
    (hp : t.cat.procedure = s.cat.procedure) (hw : t.cat.work = s.cat.work) (hq : t.flash.recordQ = s.flash.recordQ)
    (he : t.port.events = s.port.events) (hu : t.startUp = s.startUp) : Calm s t :=
  ⟨⟨hf, hr, fun h step failed => hp ▸ h step failed, fun h => ⟨hq.trans h.1, hw.trans h.2⟩⟩, he, hu⟩

/-- A change outside the catalogue, the record queue, the events and the start-up unit. -/
theorem Calm.outside (hc : t.cat = s.cat) (hq : t.flash.recordQ = s.flash.recordQ) (he : t.port.events = s.port.events)
    (hu : t.startUp = s.startUp) : Calm s t :=
  .of_fields (hc ▸ rfl) (hc ▸ rfl) (hc ▸ rfl) (hc ▸ rfl) hq he hu

/-! ## Named updates -/

theorem Calm.op_answer (h : Calm a s) {r : ResultCode} {p : List Byte} : Calm a (answer r p s) :=
  h.trans (.outside rfl rfl rfl rfl)

theorem Calm.op_setCtx (h : Calm a s) {i : Fin 4} {c : Ctx} : Calm a (setCtx i c s) := h.trans (.outside rfl rfl rfl rfl)

theorem Calm.op_updateCtx (h : Calm a s) {i : Fin 4} {f : Ctx → Ctx} : Calm a (updateCtx i f s) := h.op_setCtx

theorem Calm.op_setServeQueue (h : Calm a s) {q : List ServeEntry} : Calm a (setServeQueue q s) :=
  h.trans (.outside rfl rfl rfl rfl)

theorem Calm.op_removeEntry (h : Calm a s) {k : Key} {b : Block} : Calm a (removeEntry k b s) := h.op_setServeQueue

theorem Calm.op_setBuf (h : Calm a s) {i : OutBufId} {v : OutBuf} : Calm a (setBuf i v s) := by
  cases i <;> exact h.trans (.outside rfl rfl rfl rfl)

theorem Calm.op_setSlot (h : Calm a s) {x : Slot} {r : SlotRecord} : Calm a (setSlot x r s) := by
  cases x <;> exact h.trans (.of_fields rfl rfl rfl rfl rfl rfl rfl)

theorem Calm.op_blockEvent (h : Calm a s) {e : BlockEvent} {b : Block} : Calm a (blockEvent e b s) := h.op_setSlot

theorem Calm.op_setStagingState (h : Calm a s) {v : StagingState} : Calm a (setStagingState v s) :=
  h.trans (.of_fields rfl rfl rfl rfl rfl rfl rfl)

theorem Calm.op_setProcedure (h : Calm a s) {p : Procedure} (hp : ∀ step failed, p ≠ .wipe step failed) :
    Calm a (setProcedure p s) :=
  h.trans ⟨⟨rfl, rfl, fun _ => hp, id⟩, rfl, rfl⟩

theorem Calm.op_foldl {α : Type} {f : State → α → State} (hf : ∀ (t : State) (x : α), Calm t (f t x)) (h : Calm a s)
    (l : List α) : Calm a (l.foldl f s) := by
  induction l generalizing s with
  | nil => exact h
  | cons x xs ih => exact ih (h.trans (hf s x))

/-! ## Transmit queue -/

theorem Calm.op_txSubmit (h : Calm a s) {f : Frame} {o : Owner} : Calm a (txSubmit f o s) := by
  unfold txSubmit
  split
  · exact h.trans (.outside rfl rfl rfl rfl)
  · exact h

theorem Calm.op_txWithdraw (h : Calm a s) {p : TxEntry → Bool} : Calm a (txWithdraw p s) :=
  h.trans (.outside rfl rfl rfl rfl)

theorem Calm.op_txGiveUp (h : Calm a s) {p : TxEntry → Bool} : Calm a (txGiveUp p s) := h.trans (.outside rfl rfl rfl rfl)

/-! ## Request queues and arbiter -/

/-- A change of the sequencer and the record work list alone that adds no record job where none waits. -/
theorem SequencerOnly.calm (h : SequencerOnly s t) (hj : NoRecordJobs s → NoRecordJobs t) : Calm s t := by
  rw [show t = { s with flash := t.flash, cat := { s.cat with work := t.cat.work } } from h]
  exact ⟨⟨rfl, rfl, id, hj⟩, rfl, rfl⟩

theorem pickServeHost_recordQ {f g : Sequencer} {j : Job} (h : f.pickServeHost = some (j, g)) : g.recordQ = f.recordQ := by
  unfold Sequencer.pickServeHost at h
  split at h
  · cases h
  · cases h; rfl
  · cases h; rfl
  · split at h <;> (cases h; rfl)

/-- The arbiter's pick leaves an empty record queue empty (R22). -/
theorem pick_recordQ_nil {f g : Sequencer} {j : Job} (h : f.pick = some (j, g)) (hr : f.recordQ = []) : g.recordQ = [] := by
  unfold Sequencer.pick at h
  rw [hr] at h
  dsimp only at h
  split at h
  · exact (pickServeHost_recordQ h).trans hr
  · split at h
    · cases h; rfl
    · exact (pickServeHost_recordQ h).trans hr

theorem pickJob_noRecordJobs (h : NoRecordJobs s) : NoRecordJobs (pickJob s) := by
  obtain ⟨hq, hw⟩ := h
  unfold pickJob
  split
  · exact ⟨hq, hw⟩
  · rename_i j f hp
    exact ⟨show f.recordQ = [] from pick_recordQ_nil hp hq, hw⟩

theorem setJobs_recordQ {f : Sequencer} {q : Queue} (hq : q ≠ .record) (js : List Job) :
    (f.setJobs q js).recordQ = f.recordQ := by
  cases q with
  | record => exact absurd rfl hq
  | fetch => rfl
  | serve => rfl
  | host => rfl

theorem submit_noRecordJobs {q : Queue} (hq : q ≠ .record) {j : Job} (h : NoRecordJobs s) :
    NoRecordJobs (submit q j s) := by
  have queued : NoRecordJobs { s with flash := s.flash.setJobs q (s.flash.jobs q ++ [j]) } :=
    ⟨(setJobs_recordQ hq _).trans h.1, h.2⟩
  unfold submit
  dsimp only
  split_ifs
  · exact pickJob_noRecordJobs queued
  · exact queued
  · exact h

theorem pumpWork_of_noWork (n : Nat) (h : s.cat.work = []) : pumpWork n s = s := by
  cases n with
  | zero => rfl
  | succ n => unfold pumpWork; rw [h]

theorem endService_noRecordJobs (h : NoRecordJobs s) : NoRecordJobs (endService s) := by
  have hp := pickJob_noRecordJobs h
  unfold endService
  rwa [pumpWork_of_noWork 8 hp.2]

theorem Calm.op_submit (h : Calm a s) {q : Queue} {j : Job} (hq : q ≠ .record) : Calm a (submit q j s) :=
  h.trans ((submit_only q j s).calm (submit_noRecordJobs hq))

theorem Calm.op_endService (h : Calm a s) : Calm a (endService s) :=
  h.trans ((endService_only s).calm endService_noRecordJobs)

theorem Calm.op_withdrawJobs (h : Calm a s) {q : Queue} {p : Job → Bool} (hq : q ≠ .record) :
    Calm a (withdrawJobs q p s) :=
  h.trans (.outside rfl (setJobs_recordQ hq _) rfl rfl)

/-! ## Notice unit -/

theorem Calm.op_submitNotice (h : Calm a s) : Calm a (submitNotice s) := by
  unfold submitNotice
  dsimp only
  split
  · exact h.op_txSubmit.trans (.outside rfl rfl rfl rfl)
  · exact h.trans (.outside rfl rfl rfl rfl)
  · exact h

theorem Calm.op_noticeChanged (h : Calm a s) : Calm a (noticeChanged s) := by
  unfold noticeChanged
  split
  · exact h.trans (.outside rfl rfl rfl rfl)
  · split
    · split
      · exact h
      · exact h.op_submitNotice
    · exact h.trans (.outside rfl rfl rfl rfl)
  · exact h

theorem Calm.op_noticeWatch (h : Calm a s) {b : State} : Calm a (noticeWatch b s) := by
  unfold noticeWatch
  split
  · exact h
  · exact h.op_noticeChanged

/-! ## Serve engine -/

theorem Calm.op_offerNext (h : Calm a s) : Calm a (offerNext s) := by
  unfold offerNext
  split
  · exact h
  · split
    · exact h
    · split
      · exact h.op_txSubmit.op_setServeQueue
      · exact h

theorem Calm.op_cancelBuffer (h : Calm a s) {k : Key} {b : Block} {i : OutBufId} : Calm a (cancelBuffer k b i s) := by
  unfold cancelBuffer
  split
  · split
    · split
      · exact (h.op_withdrawJobs (by decide)).op_setBuf
      · exact h.op_setBuf
    · exact h
  · split
    · split
      · exact h.op_txGiveUp.op_setBuf
      · exact h.op_txWithdraw.op_setBuf
    · exact h
  · exact h

theorem Calm.op_cancelEntry (h : Calm a s) {k : Key} {b : Block} : Calm a (cancelEntry k b s) :=
  h.op_removeEntry.op_txGiveUp.op_cancelBuffer.op_cancelBuffer.op_offerNext

theorem Calm.op_cancelKey (h : Calm a s) {k : Option Key} : Calm a (cancelKey k s) := by
  cases k with
  | none => exact h
  | some k => exact Calm.op_foldl (fun t _ => (Calm.refl t).op_cancelEntry) h _

/-! ## Fetch engine -/

theorem Calm.op_submitAsk (h : Calm a s) {i : Fin 4} : Calm a (submitAsk i s) := by
  unfold submitAsk
  dsimp only
  split
  · exact h.op_txSubmit.op_setCtx
  · exact h.op_setCtx

theorem Calm.op_submitHeld (h : Calm a s) : Calm a (submitHeld s) := by
  refine Calm.op_foldl (fun t i => ?_) h _
  split
  · exact (Calm.refl t).op_submitAsk
  · exact .refl t

theorem Calm.op_releaseCtx (h : Calm a s) {i : Fin 4} : Calm a (releaseCtx i s) := by
  unfold releaseCtx
  extract_lets c taken held t u
  have orphaned : Calm a (if taken then orphanService s else s) := by
    split
    · exact h.trans (.outside rfl rfl rfl rfl)
    · exact h
  have withdrawn : Calm a t := (orphaned.op_withdrawJobs (by decide)).op_txGiveUp
  have cleared : Calm a u := withdrawn.op_setCtx
  exact cleared.trans (.outside rfl rfl rfl rfl)

/-- An entry to ASKING before the fifth try defers no block, so it raises nothing (R110). -/
theorem Calm.op_enterAsking (h : Calm a s) {i : Fin 4} (ht : (ctxOf s i).tries < 5) : Calm a (enterAsking i s) := by
  unfold enterAsking
  dsimp only
  rw [if_neg (Nat.not_le.mpr ht)]
  split
  · exact h.op_setCtx.op_submitAsk
  · exact h.op_setCtx

theorem Calm.op_openOn (h : Calm a s) {i : Fin 4} {b : Block} : Calm a (openOn i b s) := by
  unfold openOn
  dsimp only
  split
  · exact h.op_setCtx.op_blockEvent.op_submit (by decide)
  · exact h.op_setCtx.op_enterAsking (by rw [setCtx_get]; exact Nat.succ_pos 4)

theorem Calm.op_openOne (h : Calm a s) : Calm a (openOne s) := by
  unfold openOne
  split
  · split
    · exact h.op_openOn
    · exact h
  · exact h

theorem Calm.op_fetchFollow (h : Calm a s) : Calm a (fetchFollow s) :=
  h.op_submitHeld.op_openOne.op_openOne.op_openOne.op_openOne

theorem Calm.op_endCtx (h : Calm a s) {i : Fin 4} : Calm a (endCtx i s) := h.op_releaseCtx.op_fetchFollow

theorem Calm.op_closeGate (h : Calm a s) : Calm a (closeGate s) := by
  refine Calm.op_foldl (fun t i => ?_) h _
  unfold holdAsk
  dsimp only
  split
  · split
    · exact (Calm.refl t).op_txWithdraw
    · exact (Calm.refl t).op_txWithdraw.op_updateCtx
  · exact .refl t

/-! ## PROTECTED returns and the end of an event -/

theorem wipeNext_of_noWipe (hn : NoWipe s) : wipeNext s = s := by
  unfold wipeNext
  split
  · rename_i step failed hp
    exact absurd hp (hn step failed)
  · rfl

theorem calm_eraseReturn_isProtected (hn : NoWipe s) (v : Service) : Calm s (eraseReturn v .isProtected s) := by
  have h := Calm.refl s
  unfold eraseReturn
  split
  · split
    · split
      · unfold orphanErased
        rw [if_neg (by simp)]
        exact h
      · exact h.op_updateCtx.op_blockEvent.op_endCtx
    · exact h.op_blockEvent.op_answer
    · rw [wipeNext_of_noWipe hn]; exact h
    · exact h
  · exact h

theorem calm_programReturn_isProtected (v : Service) : Calm s (programReturn v .isProtected s) := by
  have h := Calm.refl s
  unfold programReturn
  split
  · split
    · split
      · exact h.trans (.outside rfl rfl rfl rfl)
      · exact h.op_updateCtx.op_blockEvent.op_endCtx
    · exact h.op_blockEvent.op_answer
    · exact h
    · exact h
  · exact h

theorem calm_protectedReturn (hn : NoWipe s) (v : Service) : Calm s (protectedReturn v s) := by
  unfold protectedReturn
  split
  · exact (calm_eraseReturn_isProtected hn v).op_endService
  · exact (calm_programReturn_isProtected v).op_endService
  · exact .refl s

theorem calm_drainProtected (hn : NoWipe s) (n : Nat) : Calm s (drainProtected n s) := by
  induction n generalizing s with
  | zero => exact .refl s
  | succ n ih =>
    unfold drainProtected
    split
    · rename_i v _
      split
      · have h := calm_protectedReturn hn v
        exact h.trans (ih (h.noWipe hn))
      · exact .refl s
    · exact .refl s

/-- The end of an event, outside WIPE: whatever jobs end PROTECTED in it, it raises nothing and touches no record (R25, R92). -/
theorem calm_settle (hn : NoWipe s) (before : State) : Calm s (settle before s) :=
  (calm_drainProtected hn _).op_noticeWatch

/-! ## FROZEN and the rebuild -/

/-- FROZEN as it is set, before the open procedure ends and the gate closes (R54, R201). -/
def frozenBegun (s : State) : State :=
  { s with cat := { s.cat with frozen := true, work := [] }, startUp := { s.startUp with repairs := 0 } }

theorem Calm.op_loadUndo (h : Calm a s) : Calm a (loadUndo s) := h.op_setStagingState.op_cancelKey.op_setSlot

theorem calm_procedureFailed (s : State) : Calm s (procedureFailed s) := by
  have h : Calm s (setProcedure .none s) := (Calm.refl s).op_setProcedure nofun
  unfold procedureFailed
  dsimp only
  split
  · exact .refl s
  · exact h
  · exact h.op_setStagingState.op_answer
  · exact h.op_answer
  · exact h.op_answer
  · exact h.op_loadUndo.op_answer
  · rename_i step failed hp
    exact ⟨⟨rfl, rfl, fun hn => absurd hp (hn step failed), id⟩, rfl, rfl⟩

/-- FROZEN touches no event and no record beside those it clears (R54). -/
theorem calm_setFrozen (s : State) : Calm (frozenBegun s) (setFrozen s) := (calm_procedureFailed (frozenBegun s)).op_closeGate

theorem recordsKept_enterJoining (s : State) : RecordsKept s (enterJoining s) := by
  let joined := setLink .joining s
  have h : RecordsKept s { joined with line := { joined.line with joinLeft := some 300, listen := .stopped } } :=
    ⟨rfl, rfl, id, id⟩
  exact h.trans (Calm.refl _).op_fetchFollow.toRecordsKept

theorem recordsKept_tryRebuildEnd (s : State) : RecordsKept s (tryRebuildEnd s) := by
  have h : RecordsKept s { s with startUp := { s.startUp with stage := .running, rebuild := .idle } } := ⟨rfl, rfl, id, id⟩
  unfold tryRebuildEnd
  split
  · unfold rebuildEnd
    dsimp only
    split
    · exact h
    · exact h.trans (recordsKept_enterJoining _)
  · exact (Calm.refl s).toRecordsKept

theorem recordsKept_submitVerify (role : Role) (b : Block) (s : State) : RecordsKept s (submitVerify role b s) := by
  have h (r : Rebuild) : RecordsKept s (setRebuild r s) := ⟨rfl, rfl, id, id⟩
  unfold submitVerify
  dsimp only
  split
  · exact (h _).trans ((Calm.refl _).op_submit (by decide)).toRecordsKept
  · exact h _

theorem recordsKept_rebuildResume (s : State) : RecordsKept s (rebuildResume s) := by
  unfold rebuildResume
  split
  · exact recordsKept_submitVerify ..
  · exact recordsKept_tryRebuildEnd s
  · exact (Calm.refl s).toRecordsKept

theorem rebuildResume_of_idle (h : s.startUp.rebuild = .idle) : rebuildResume s = s := by
  unfold rebuildResume
  rw [h]

/-! ## Results of record jobs outside WIPE -/

theorem wipeDraining_of_noWipe (hn : NoWipe s) : wipeDraining s = false := by
  unfold wipeDraining
  split
  · rename_i failed hp
    exact absurd hp (hn .drain failed)
  · rfl

theorem wipeOwnJob_of_noWipe (hn : NoWipe s) : wipeOwnJob s = false := by
  unfold wipeOwnJob
  split
  · rfl
  · rename_i step failed _ hp
    exact absurd hp (hn step failed)
  · rfl

/-- The failure of a record job before FROZEN: ARRAY-FAULT raised and the record queue emptied (R38). -/
def recordFault (u : ControlUnit) (j : Job) (s : State) : State :=
  { raise .arrayFault (faultDetail (controlNumber u) (jobCode j)) s with flash := { s.flash with recordQ := [] } }

/-- Outside WIPE a record job's failure sets FROZEN, and a rebuild goes on (R38, R54, R201). -/
theorem controlFailed_of_noWipe (hn : NoWipe s) (u : ControlUnit) (j : Job) :
    controlFailed u j s = rebuildResume (setFrozen (recordFault u j s)) := by
  change (if wipeDraining s then wipeNext (recordFault u j s)
    else if wipeOwnJob s then wipeNext (setFrozen (recordFault u j s))
    else rebuildResume (setFrozen (recordFault u j s))) = _
  rw [wipeDraining_of_noWipe hn, wipeOwnJob_of_noWipe hn, if_neg Bool.false_ne_true, if_neg Bool.false_ne_true]

theorem noWipe_controlFailed (hn : NoWipe s) (u : ControlUnit) (j : Job) : NoWipe (controlFailed u j s) := by
  rw [controlFailed_of_noWipe hn]
  exact (recordsKept_rebuildResume _).noWipe ((calm_setFrozen _).noWipe hn)

/-- The FAILED result of a record job is what the statements call a failed record job (R38, R52, R54). -/
theorem recordJobFailed_controlFailed (hn : NoWipe s) (u : ControlUnit) (j : Job) :
    RecordJobFailed s (controlFailed u j s) (controlNumber u) (jobCode j) := by
  rw [controlFailed_of_noWipe hn]
  have frozen := calm_setFrozen (recordFault u j s)
  have resumed := recordsKept_rebuildResume (setFrozen (recordFault u j s))
  obtain ⟨hq, hwork⟩ := resumed.noJobs (frozen.noJobs ⟨rfl, rfl⟩)
  refine ⟨resumed.frozen.trans frozen.frozen, hq, hwork, resumed.recorded.trans frozen.recorded, fun idle => ?_⟩
  have still : (setFrozen (recordFault u j s)).startUp.rebuild = .idle := by rw [frozen.startUp]; exact idle
  rw [rebuildResume_of_idle still]
  exact frozen.events

/-- A failed record job stays one through what keeps events and records. -/
theorem RecordJobFailed.calm {u : State} {unit : Nat} {kind : Byte} (h : RecordJobFailed s t unit kind) (k : Calm t u) :
    RecordJobFailed s u unit kind := by
  obtain ⟨hf, hq, hw, hr, he⟩ := h
  obtain ⟨hq', hw'⟩ := k.noJobs ⟨hq, hw⟩
  exact ⟨k.frozen.trans hf, hq', hw', k.recorded.trans hr, fun idle => k.events.trans (he idle)⟩

/-- A record job that ends FAILED, at the end of its event. -/
theorem recordJobFailed_settled (hn : NoWipe s) (u : ControlUnit) (j : Job) (before : State) :
    RecordJobFailed s (settle before (endService (controlFailed u j s))) (controlNumber u) (jobCode j) := by
  have ended := (Calm.refl (controlFailed u j s)).op_endService
  have settled := calm_settle (ended.noWipe (noWipe_controlFailed hn u j)) before
  exact RecordJobFailed.calm (recordJobFailed_controlFailed hn u j) (ended.trans settled)

/-- The DONE result of a SET MARK, outside WIPE and the rebuild, changes nothing (R35, R53). -/
theorem controlDone_setMark (hn : NoWipe s) (hr : running s = true) (x : Slot) (b : Block) :
    controlDone (.setMark x b) s = s := by
  have stage : s.startUp.stage = .running := by simpa [running] using hr
  unfold controlDone repairReturned
  rw [wipeDraining_of_noWipe hn, wipeOwnJob_of_noWipe hn, stage]
  rfl

end Sys2Proof.Machine
end

section
/-! SUPPORT. SET MARK: what its program leaves in the array, and its three ends: DONE, a mismatch, an overtime (R35). -/

namespace Sys2Proof.Machine

variable {s : State} {v : Service} {x : Slot} {b : Block}

/-! ## The ends as the model computes them -/

theorem exec_setMark (hs : s.flash.service = some v) (hj : v.job = .setMark x b) (left : Left) :
    exec (.setMark left) s = .next (settle s (markEnds v x b left s)) := by
  change execSetMark left s = _
  unfold execSetMark conclude
  simp only [hs, hj]

theorem operationLeaves_setMark (ho : v.op = .main) (hj : v.job = .setMark x b) (left : Left) :
    operationLeaves s v left = programLeaving s.mem (controlNumber (marksRow x)) 0 (markPattern b) left := by
  simp only [operationLeaves, operationProgram, programRun, ho, hj]

theorem leaveContent_mem (v : Service) (left : Left) (s : State) : (leaveContent v left s).mem = operationLeaves s v left := rfl

/-- The array after a mark's program, whatever its result does (R35). -/
theorem mem_settle_markEnds (left : Left) : (settle s (markEnds v x b left s)).mem = operationLeaves s v left := by
  have work : Work (leaveContent v left s) (markEnds v x b left s) := by
    unfold markEnds
    dsimp only
    split
    · exact (Work.refl _).op_controlDone.op_endService
    · exact (Work.refl _).op_controlFailed.op_endService
  exact work.op_settle.frame.1

/-! ## The array -/

theorem length_markPattern (b : Block) : (markPattern b).length = 128 := by
  simp only [markPattern, segmentPattern, List.length_append, List.length_replicate, List.length_singleton]
  omega

/-- A mark's pattern holds its clearing byte at its block's place and FFh elsewhere (R14, R35). -/
theorem byteAt_markPattern (b : Block) {i : Nat} (hi : i < 128) :
    byteAt (markPattern b) i = if i = b.val / 8 then ~~~ ((1 : Byte) <<< (b.val % 8)) else erasedByte := by
  rcases lt_trichotomy i (b.val / 8) with h | h | h
  · simp [byteAt, markPattern, segmentPattern, List.getD_eq_getElem?_getD, List.getElem?_append, h, h.ne]
  · simp [byteAt, markPattern, segmentPattern, List.getD_eq_getElem?_getD, h]
  · obtain ⟨k, rfl⟩ := Nat.exists_eq_add_of_lt h
    have past : b.val / 8 + k + 1 - b.val / 8 = k + 1 := by omega
    have within : k < 128 - b.val / 8 - 1 := by omega
    simp [byteAt, markPattern, segmentPattern, List.getD_eq_getElem?_getD, List.getElem?_append, h.ne', h.not_gt, past, within]

/-- A mark's program that leaves the expected content clears the one bit of its block (R3, R14, R35). -/
theorem read_setMark_expected (hm : Memory.wf s.mem) (ho : v.op = .main) (hj : v.job = .setMark x b) (i : Nat) :
    Memory.read (operationLeaves s v .expected) i =
      if i = unitAddr (controlNumber (marksRow x)) (b.val / 8) then
        Memory.read s.mem i &&& ~~~ ((1 : Byte) <<< (b.val % 8))
      else Memory.read s.mem i := by
  rw [operationLeaves_setMark ho hj, read_programLeaving hm, length_markPattern]
  generalize controlNumber (marksRow x) = u
  have place : unitAddr u (b.val / 8) = unitAddr u 0 + b.val / 8 := by simp [unitAddr]
  by_cases inside : unitAddr u 0 ≤ i ∧ i < unitAddr u 0 + 128
  · obtain ⟨k, rfl⟩ := Nat.exists_eq_add_of_le inside.1
    have hk : k < 128 := by omega
    rw [if_pos inside, Nat.add_sub_cancel_left, programLeft,
      getD_programmed _ _ (by rw [length_readBytes, length_markPattern]) _ (by rwa [length_markPattern]),
      getD_readBytes _ _ _ _ hk, byteAt_markPattern b hk, place]
    by_cases hb : k = b.val / 8
    · simp [hb]
    · rw [if_neg hb, if_neg (by omega), show erasedByte = BitVec.allOnes 8 from rfl, BitVec.and_allOnes]
  · rw [if_neg inside, if_neg (by omega)]

/-- A mark's program that leaves the expected content reads back as expected (R3, R35). -/
theorem readBackMatches_setMark_expected (hm : Memory.wf s.mem) (ho : v.op = .main) (hj : v.job = .setMark x b) :
    readBackMatches s.mem (operationLeaves s v .expected) (controlNumber (marksRow x)) 0 (markPattern b) = true := by
  rw [operationLeaves_setMark ho hj]
  exact decide_eq_true (readBytes_programLeaving hm ..)

/-! ## The results -/

/-- A SET MARK whose row reads back ends DONE: FROZEN and the events are as they were (R35). -/
theorem calm_setMark_done (hn : NoWipe s) (hr : running s = true) (hj : v.job = .setMark x b) {left : Left}
    (matched : readBackMatches s.mem (operationLeaves s v left) (controlNumber (marksRow x)) 0 (markPattern b) = true) :
    Calm s (settle s (markEnds v x b left s)) := by
  have ends : markEnds v x b left s = endService (leaveContent v left s) := by
    unfold markEnds
    dsimp only
    rw [leaveContent_mem, if_pos matched, hj, controlDone_setMark (s := leaveContent v left s) hn hr]
  have written : Calm s (leaveContent v left s) := .outside rfl rfl rfl rfl
  rw [ends]
  exact written.op_endService.trans (calm_settle (written.op_endService.noWipe hn) s)

/-- A SET MARK whose row does not read back ends FAILED (R35, R38). -/
theorem recordJobFailed_setMark (hn : NoWipe s) (hj : v.job = .setMark x b) {left : Left}
    (mismatch : ¬ readBackMatches s.mem (operationLeaves s v left) (controlNumber (marksRow x)) 0 (markPattern b) = true) :
    RecordJobFailed s (settle s (markEnds v x b left s)) (controlNumber (marksRow x)) 7 := by
  have ends : markEnds v x b left s = endService (controlFailed (marksRow x) (.setMark x b) (leaveContent v left s)) := by
    unfold markEnds
    dsimp only
    rw [leaveContent_mem, if_neg mismatch, hj]
  rw [ends]
  exact recordJobFailed_settled (s := leaveContent v left s) hn (marksRow x) (.setMark x b) s

/-- A SET MARK stopped at its overtime limit: the fault of the overtime, then the failure (R19, R35, R38). -/
theorem exec_overtime_setMark (hs : s.flash.service = some v) (ho : v.op = .main) (hj : v.job = .setMark x b) {left : LastLeft}
    (legal : interruptedLegal s v left.content = true) :
    exec (.overtime left) s = .next (settle s (endService (controlFailed (marksRow x) (.setMark x b)
      (raise .arrayFault (faultDetail (controlNumber (marksRow x)) 7)
        (leaveContent v left.content (strapPins left.straps s)))))) := by
  change execOvertime left s = _
  unfold execOvertime conclude
  simp only [hs, legal, if_true, operationOvertime, ho, mainOvertime, hj, overtimeFault, operationUnit, programRun, jobCode]

/-- Settles O23: the mark's program clears its one bit, and each end of the job, at the end of its event, is DONE without a trace
or a failed record job. -/
theorem setMarkClearsOneBit : Obligations.SetMarkClearsOneBit := by
  unfold Obligations.SetMarkClearsOneBit
  intro s v x b hm hs ho hj
  refine ⟨⟨_, exec_setMark hs hj .expected, fun i => ?_⟩, fun hn hr => ⟨?_, fun left => ?_⟩, fun hn left legal => ?_⟩
  · rw [mem_settle_markEnds]
    exact read_setMark_expected hm ho hj i
  · exact readBackMatches_setMark_expected hm ho hj
  · refine ⟨_, exec_setMark hs hj left, mem_settle_markEnds left, ?_⟩
    rw [mem_settle_markEnds]
    split
    · rename_i matched
      have calm := calm_setMark_done hn hr hj matched
      exact ⟨calm.frozen, calm.events⟩
    · rename_i mismatch
      exact recordJobFailed_setMark hn hj mismatch
  · refine ⟨_, exec_overtime_setMark hs ho hj legal, ?_⟩
    exact recordJobFailed_settled (s := raise .arrayFault (faultDetail (controlNumber (marksRow x)) 7)
      (leaveContent v left.content (strapPins left.straps s))) hn (marksRow x) (.setMark x b) s

end Sys2Proof.Machine
end

section
/-! SUPPORT. PEER TABLE: what a touch leaves of the fields of R95, for a known address, a new one and a full table (R96). -/

namespace Sys2Proof.Machine

variable {a : Addr} {ps : List Peer}

/-! ## The fields of R95 -/

/-- The model's own count of frames is no field of R95. -/
@[simp] theorem fields_countFrame (p : Peer) : p.countFrame.fields = p.fields := rfl

@[simp] theorem map_fields_countFrame (ps : List Peer) : (ps.map Peer.countFrame).map Peer.fields = ps.map Peer.fields := by
  rw [List.map_map]
  rfl

@[simp] theorem fields_fresh (a : Addr) : (Peer.fresh a).fields = (a, 0, none, 0, 65535) := rfl

/-! ## The entry that makes room -/

theorem heard_le_of_heardBefore_false {p q : Peer} (h : heardBefore q p = false) : q.heard ≤ p.heard := by
  have h := (Bool.or_eq_false_iff.mp h).1
  exact Nat.le_of_not_lt (of_decide_eq_false h)

/-- Making room takes one entry of the greatest last-heard age out of its place (R96). -/
theorem exists_evictOldest_eq (h : ps ≠ []) : ∃ (before after : List Peer) (old : Peer), ps = before ++ old :: after ∧
    (∀ p ∈ ps, p.heard ≤ old.heard) ∧ evictOldest ps = before ++ after := by
  obtain ⟨p, hp, first⟩ := exists_oldest ps h
  obtain ⟨old, before, after, _, eldest, split, erased⟩ :=
    List.exists_of_eraseP (p := fun p => ps.all (fun q => !heardBefore q p)) hp (by simpa using first)
  have eldest : ∀ q ∈ ps, heardBefore q old = false := by simpa using eldest
  exact ⟨before, after, old, split, fun q hq => heard_le_of_heardBefore_false (eldest q hq), erased⟩

/-! ## The table after a touch -/

theorem touched_of_known (h : ∃ p ∈ ps, p.addr = a) :
    touched a ps = ps.map (fun p => if p.addr = a then { p with heard := 0, laterFrames := 0 } else p.countFrame) := by
  unfold touched
  exact if_pos (by simpa using h)

theorem touched_of_unknown (h : ∀ p ∈ ps, p.addr ≠ a) :
    touched a ps = (if 24 ≤ ps.length then evictOldest ps else ps).map Peer.countFrame ++ [Peer.fresh a] := by
  unfold touched
  exact if_neg (by simpa using h)

theorem fields_touched_of_known (h : ∃ p ∈ ps, p.addr = a) :
    (touched a ps).map Peer.fields = ps.map (fun p => (if p.addr = a then { p with heard := 0 } else p).fields) := by
  rw [touched_of_known h, List.map_map]
  refine List.map_congr_left fun p _ => ?_
  by_cases known : p.addr = a
  · simp only [Function.comp, if_pos known]
    rfl
  · simp only [Function.comp, if_neg known, fields_countFrame]

theorem fields_touched_of_unknown (h : ∀ p ∈ ps, p.addr ≠ a) :
    (touched a ps).map Peer.fields =
      (if 24 ≤ ps.length then evictOldest ps else ps).map Peer.fields ++ [(a, 0, none, 0, 65535)] := by
  rw [touched_of_unknown h, List.map_append, map_fields_countFrame, List.map_singleton, fields_fresh]

/-- Settles O38, by the touch's three cases: a known address, a new one with room, a new one in a full table. -/
theorem touchKeepsPeers : Obligations.TouchKeepsPeers := by
  unfold Obligations.TouchKeepsPeers
  refine fun a ps => ⟨fields_touched_of_known, fun unknown room => ?_, fun unknown full => ?_⟩
  · rw [fields_touched_of_unknown unknown, if_neg (Nat.not_le.mpr room)]
  · have nonempty : ps ≠ [] := List.ne_nil_of_length_pos (Nat.lt_of_lt_of_le (by decide) full)
    obtain ⟨before, after, old, split, greatest, evicted⟩ := exists_evictOldest_eq nonempty
    refine ⟨before, after, old, split, greatest, ?_⟩
    rw [fields_touched_of_unknown unknown, if_pos full, evicted]

end Sys2Proof.Machine
end

section
/-! SUPPORT. INVARIANTS: what every small change keeps, every command keeps and so does every step. One lemma for each block's
bounds; the step's own induction is packaged once (`step_keeps`). -/

namespace Sys2Proof.Machine

variable {s t : State}

/-! ## A step as a run of small changes -/

/-- What a step can do: a millisecond passes, or the front command runs. -/
theorem step_cases (h : step s = .next t) :
    t = elapse 1 s ∨ ∃ c rest, s.pending = c :: rest ∧ exec c (s.withPending rest) = .next t := by
  unfold step at h
  split at h
  · exact .inl (next_inj h).symm
  · rename_i c rest hq
    exact .inr ⟨c, rest, hq, h⟩

/-- An invariant that ignores the queue of waiting commands, holds at every origin of a command and is kept by every small
change is kept by every step. -/
theorem step_keeps {P : State → Prop} (small : ∀ s t, Small s t → P s → P t)
    (origin : ∀ c s o, Origin c s o → P s → P o) (queue : ∀ s q, P s → P (s.withPending q))
    (h : step s = .next t) (hs : P s) : P t := by
  obtain rfl | ⟨c, rest, -, hc⟩ := step_cases h
  · exact ((Work.refl s).op_elapse).keeps small hs
  · obtain ⟨o, ho, hw⟩ := exec_runs c _ t hc
    exact hw.keeps small (origin c _ o ho (queue s rest hs))

/-- Settles O1, by the step's one branch. -/
theorem stepRunsFrontCommand : Obligations.StepRunsFrontCommand := by
  unfold Obligations.StepRunsFrontCommand
  constructor
  · intro c rest s h
    unfold step
    rw [h]
  · intro s h
    unfold step
    rw [h]

/-! ## What the sequencer's own operations leave alone -/

theorem SequencerOnly.port (h : SequencerOnly s t) : t.port = s.port := by rw [show t = _ from h]
theorem SequencerOnly.startUp (h : SequencerOnly s t) : t.startUp = s.startUp := by rw [show t = _ from h]
theorem SequencerOnly.line (h : SequencerOnly s t) : t.line = s.line := by rw [show t = _ from h]
theorem SequencerOnly.notice (h : SequencerOnly s t) : t.notice = s.notice := by rw [show t = _ from h]
theorem SequencerOnly.fetch (h : SequencerOnly s t) : t.fetch = s.fetch := by rw [show t = _ from h]
theorem SequencerOnly.serve (h : SequencerOnly s t) : t.serve = s.serve := by rw [show t = _ from h]
theorem SequencerOnly.mem (h : SequencerOnly s t) : t.mem = s.mem := by rw [show t = _ from h]

theorem txSubmit_eq_line (f : Frame) (o : Owner) (s : State) :
    txSubmit f o s = { s with line := (txSubmit f o s).line } := by
  unfold txSubmit
  split <;> rfl

/-! ## The array -/

theorem Origin.memoryForm {c : Instr} {o : State} (h : Origin c s o) (hs : MemoryForm s) : MemoryForm o := by
  cases h with
  | same => exact hs
  | array v left => exact wf_operationLeaves hs v left
  | strapped v left straps => exact wf_operationLeaves (s := strapPins straps s) hs v left
  | reset p pins left => exact wf_cutShort (s := { s with port := p }) hs left
  | begins => exact hs
  | handed => exact hs

/-- Settles O5: a run of small changes leaves the array, and each origin writes it in canonical form. -/
theorem memoryFormKept : Obligations.MemoryFormKept := by
  unfold Obligations.MemoryFormKept
  intro s t
  refine step_keeps (P := MemoryForm) (fun s t h hs => ?_) (fun c s o h hs => h.memoryForm hs) (fun s q hs => hs)
  have same : t.mem = s.mem := h.frame.1
  rwa [MemoryForm, same]

/-! ## The event queue -/

/-- An event queue with one entry of each kind, each counted 1 to 255 (R162). -/
def EventList (es : List EventEntry) : Prop :=
  (es.map EventEntry.kind).Nodup ∧ ∀ e ∈ es, 1 ≤ e.count ∧ e.count ≤ 255

theorem mem_kinds_raiseIn {k l : EventKind} {d : BitVec 32} {es : List EventEntry}
    (h : l ∈ (raiseIn k d es).map EventEntry.kind) : l = k ∨ l ∈ es.map EventEntry.kind := by
  induction es with
  | nil => exact .inl (by simpa [raiseIn] using h)
  | cons e es ih =>
    unfold raiseIn at h
    split at h
    · exact .inr h
    · rcases List.mem_cons.mp h with rfl | h
      · exact .inr (List.mem_cons_self ..)
      · exact (ih h).imp_right (List.mem_cons_of_mem _)

theorem EventList.raiseIn {es : List EventEntry} (h : EventList es) (k : EventKind) (d : BitVec 32) :
    EventList (raiseIn k d es) := by
  obtain ⟨distinct, counted⟩ := h
  induction es with
  | nil => exact ⟨List.nodup_singleton _, by simp [Machine.raiseIn]⟩
  | cons e es ih =>
    obtain ⟨hhead, htail⟩ := List.nodup_cons.mp distinct
    obtain ⟨hcount, hcounts⟩ := List.forall_mem_cons.mp counted
    unfold Machine.raiseIn
    split
    · refine ⟨distinct, List.forall_mem_cons.mpr ⟨?_, hcounts⟩⟩
      dsimp only
      omega
    · rename_i other
      obtain ⟨ihd, ihc⟩ := ih htail hcounts
      refine ⟨List.nodup_cons.mpr ⟨fun hm => ?_, ihd⟩, List.forall_mem_cons.mpr ⟨hcount, ihc⟩⟩
      exact (mem_kinds_raiseIn hm).elim other hhead

theorem EventList.drop {es : List EventEntry} (h : EventList es) (k : Nat) : EventList (es.drop k) :=
  ⟨h.1.sublist ((List.drop_sublist k es).map _), fun e he => h.2 e (List.mem_of_mem_drop he)⟩

theorem EventList.nil : EventList [] := ⟨List.nodup_nil, nofun⟩

theorem Small.eventsLegal (h : Small s t) (hs : EventsLegal s) : EventsLegal t := by
  cases h with
  | raise k d => exact EventList.raiseIn hs k d
  | port p _ same =>
    show EventList p.events
    rwa [same]
  | takeEvents p k _ taken =>
    have := EventList.drop hs k
    rw [← taken] at this
    exact this
  | submit q j => rwa [EventsLegal, (submit_only q j s).port]
  | pickJob => rwa [EventsLegal, (pickJob_only s).port]
  | txSubmit f o => rw [txSubmit_eq_line]; exact hs
  | deviceReset => exact EventList.nil
  | _ => exact hs

theorem Origin.eventsLegal {c : Instr} {o : State} (h : Origin c s o) (hs : EventsLegal s) : EventsLegal o := by
  cases h with
  | reset => exact EventList.nil
  | _ => exact hs

/-- Settles O6, over the small changes: only a raise, an EVENT and a device reset change the queue. -/
theorem eventQueueKept : Obligations.EventQueueKept := by
  unfold Obligations.EventQueueKept
  intro s t
  exact step_keeps (P := EventsLegal) (fun _ _ => Small.eventsLegal) (fun _ _ _ => Origin.eventsLegal) (fun _ _ hs => hs)

/-! ## The request queues -/

theorem RequestQueuesFit.pickServeHost {f g : Sequencer} {j : Job} (h : RequestQueuesFit f)
    (hp : f.pickServeHost = some (j, g)) : RequestQueuesFit g := by
  obtain ⟨hr, hf, hs, hh, -⟩ := h
  unfold Sequencer.pickServeHost at hp
  split at hp
  · cases hp
  · rename_i js hjs _
    rw [hjs, List.length_cons] at hs
    cases hp
    exact ⟨hr, hf, by dsimp only; omega, hh, Nat.zero_le 4⟩
  · rename_i js _ hjs
    rw [hjs, List.length_cons] at hh
    cases hp
    exact ⟨hr, hf, hs, by dsimp only; omega, Nat.zero_le 4⟩
  · rename_i js k ks hjs hks
    rw [hjs, List.length_cons] at hs
    rw [hks, List.length_cons] at hh
    split at hp
    · cases hp
      exact ⟨hr, hf, by dsimp only; omega, by rw [hks, List.length_cons]; exact hh, Nat.zero_le 4⟩
    · cases hp
      exact ⟨hr, hf, by rw [hjs, List.length_cons]; exact hs, by dsimp only; omega, Nat.zero_le 4⟩

/-- The arbiter's pick only takes from the queues, and its fetch-run count stops at 4 (R22, R23). -/
theorem RequestQueuesFit.pick {f g : Sequencer} {j : Job} (h : RequestQueuesFit f) (hp : f.pick = some (j, g)) :
    RequestQueuesFit g := by
  obtain ⟨hr, hf, hs, hh, hn⟩ := h
  unfold Sequencer.pick at hp
  split at hp
  · rename_i k ks hks
    rw [hks, List.length_cons] at hr
    cases hp
    exact ⟨by dsimp only; omega, hf, hs, hh, hn⟩
  · split at hp
    · exact RequestQueuesFit.pickServeHost ⟨hr, hf, hs, hh, hn⟩ hp
    · rename_i notFull
      split at hp
      · rename_i k ks hks
        rw [hks, List.length_cons] at hf
        cases hp
        refine ⟨hr, by dsimp only; omega, hs, hh, ?_⟩
        dsimp only
        split
        · exact Nat.zero_le 4
        · rename_i waiting
          have : f.fetchRun ≠ 4 := fun e => notFull (by simp [e, waiting])
          omega
      · exact RequestQueuesFit.pickServeHost ⟨hr, hf, hs, hh, hn⟩ hp

theorem RequestQueuesFit.pickJob (h : RequestQueuesFit s.flash) : RequestQueuesFit (pickJob s).flash := by
  unfold Machine.pickJob
  split
  · exact h
  · rename_i hp
    have fits := RequestQueuesFit.pick h hp
    exact fits

theorem RequestQueuesFit.setJobs {f : Sequencer} (h : RequestQueuesFit f) {q : Queue} {js : List Job}
    (hj : js.length ≤ q.capacity) : RequestQueuesFit (f.setJobs q js) := by
  obtain ⟨hr, hf, hs, hh, hn⟩ := h
  cases q with
  | record => exact ⟨hj, hf, hs, hh, hn⟩
  | fetch => exact ⟨hr, hj, hs, hh, hn⟩
  | serve => exact ⟨hr, hf, hj, hh, hn⟩
  | host => exact ⟨hr, hf, hs, hj, hn⟩

theorem RequestQueuesFit.jobs {f : Sequencer} (h : RequestQueuesFit f) (q : Queue) : (f.jobs q).length ≤ q.capacity := by
  obtain ⟨hr, hf, hs, hh, -⟩ := h
  cases q with
  | record => exact hr
  | fetch => exact hf
  | serve => exact hs
  | host => exact hh

theorem jobs_of_noJobs {f : Sequencer} (h : f.noJobs = true) (q : Queue) : f.jobs q = [] := by
  simp only [Sequencer.noJobs, Bool.and_eq_true, decide_eq_true_eq] at h
  obtain ⟨⟨⟨hr, hf⟩, hs⟩, hh⟩ := h
  cases q with
  | record => exact hr
  | fetch => exact hf
  | serve => exact hs
  | host => exact hh

theorem Queue.capacity_pos (q : Queue) : 1 ≤ q.capacity := by cases q <;> decide

/-- A submission is taken while nothing waits, or has room in its queue, or is not accepted (R20, R22). -/
theorem RequestQueuesFit.submit (h : RequestQueuesFit s.flash) (q : Queue) (j : Job) :
    RequestQueuesFit (submit q j s).flash := by
  unfold Machine.submit
  dsimp only
  split_ifs with idle room
  · rw [Bool.and_eq_true] at idle
    refine RequestQueuesFit.pickJob (RequestQueuesFit.setJobs h ?_)
    rw [jobs_of_noJobs idle.2 q]
    exact q.capacity_pos
  · refine RequestQueuesFit.setJobs h ?_
    rw [List.length_append]
    exact room
  · exact h

theorem requestQueuesFit_reset : RequestQueuesFit Sequencer.reset := by decide

theorem Small.requestQueues (h : Small s t) (hs : RequestQueuesFit s.flash) : RequestQueuesFit t.flash := by
  cases h with
  | submit q j => exact RequestQueuesFit.submit hs q j
  | pickJob => exact RequestQueuesFit.pickJob hs
  | withdrawJobs q p => exact RequestQueuesFit.setJobs hs ((List.length_filter_le _ _).trans (RequestQueuesFit.jobs hs q))
  | flash f _ same =>
    obtain ⟨hr, hf, hse, hh, hn⟩ := same
    show RequestQueuesFit f
    rwa [RequestQueuesFit, hr, hf, hse, hh, hn]
  | txSubmit f o => rw [txSubmit_eq_line]; exact hs
  | deviceReset => exact requestQueuesFit_reset
  | _ => exact hs

theorem Origin.requestQueues {c : Instr} {o : State} (h : Origin c s o) (hs : RequestQueuesFit s.flash) :
    RequestQueuesFit o.flash := by
  cases h with
  | reset => exact requestQueuesFit_reset
  | _ => exact hs

/-! ## The transmit queue -/

theorem classCount_frames (q : List TxEntry) (cls : Nat) :
    classCount q cls = (q.map TxEntry.frame).countP (fun f => decide (frameClass f = cls)) := by
  rw [classCount, List.countP_map, List.countP_eq_length_filter]
  rfl

/-- Entries that leave the queue, or whose frames stay, raise the count of no class. -/
theorem classCount_le_of_sublist {p q : List TxEntry} (h : (p.map TxEntry.frame).Sublist (q.map TxEntry.frame)) (cls : Nat) :
    classCount p cls ≤ classCount q cls := by
  rw [classCount_frames, classCount_frames]
  exact h.countP_le

theorem classCount_append (p q : List TxEntry) (cls : Nat) : classCount (p ++ q) cls = classCount p cls + classCount q cls := by
  simp only [classCount, List.filter_append, List.length_append]

theorem classCount_singleton (e : TxEntry) (cls : Nat) :
    classCount [e] cls = if frameClass e.frame = cls then 1 else 0 := by
  unfold classCount
  split <;> simp [*]

/-- An accepted frame has room in its class, or takes the place of the queued NOTICE (R77, R79). -/
theorem classCount_txQueued {l : LineController} {f : Frame} (o : Owner) (h : txAnswer l f = .accepted) (cls : Nat)
    (hc : classCount l.queue cls ≤ reservation cls) : classCount (txQueued l.queue f o) cls ≤ reservation cls := by
  rw [txQueued, classCount_append, classCount_singleton]
  by_cases own : frameClass f = cls
  · subst own
    rw [if_pos rfl]
    split
    · rename_i notice
      have none : classCount (l.queue.filter (fun e => decide (frameClass e.frame ≠ 4))) (frameClass f) = 0 := by
        simp only [classCount, notice, List.filter_filter, List.length_eq_zero_iff, List.filter_eq_nil_iff]
        simp
      rw [none, notice]
      decide
    · rename_i other
      unfold txAnswer at h
      split_ifs at h with _ room again
      · exact room
      · exact absurd again (by simp [other])
  · rw [if_neg own, Nat.add_zero]
    split
    · exact (classCount_le_of_sublist (List.filter_sublist.map _) cls).trans hc
    · exact hc

theorem Small.transmitQueue (h : Small s t) (hs : TransmitQueueFits s.line) : TransmitQueueFits t.line := by
  cases h with
  | submit q j => exact (submit_only q j s).line ▸ hs
  | pickJob => exact (pickJob_only s).line ▸ hs
  | txSubmit f o =>
    unfold Machine.txSubmit
    split
    · rename_i accepted
      exact fun cls => classCount_txQueued o accepted cls (hs cls)
    · exact hs
  | line l _ sub => exact fun cls => (classCount_le_of_sublist sub cls).trans (hs cls)
  | relink l _ same =>
    intro cls
    rw [show ({ s with line := l } : State).line.queue = s.line.queue from same]
    exact hs cls
  | deviceReset => exact fun cls => Nat.zero_le _
  | _ => exact hs

theorem Origin.transmitQueue {c : Instr} {o : State} (h : Origin c s o) (hs : TransmitQueueFits s.line) :
    TransmitQueueFits o.line := by
  cases h with
  | reset => exact fun cls => Nat.zero_le _
  | _ => exact hs

/-- Settles O7, over the small changes: a submission is accepted only where its queue has room. -/
theorem queuesKept : Obligations.QueuesKept := by
  unfold Obligations.QueuesKept
  intro s t h
  exact ⟨step_keeps (P := fun s => RequestQueuesFit s.flash) (fun _ _ => Small.requestQueues)
      (fun _ _ _ => Origin.requestQueues) (fun _ _ hs => hs) h,
    step_keeps (P := fun s => TransmitQueueFits s.line) (fun _ _ => Small.transmitQueue)
      (fun _ _ _ => Origin.transmitQueue) (fun _ _ hs => hs) h⟩

/-! ## Pool, serve queue, peer table and counters -/

theorem fetchFits_reset : FetchFits FetchEngine.reset := by
  refine ⟨by decide, fun c hc _ => ?_, fun c hc => ?_, by decide, by decide⟩
  all_goals
    rw [List.eq_of_mem_replicate (show c ∈ List.replicate 4 Ctx.cleared by simpa [FetchEngine.reset] using hc)]
  · rfl
  · exact Nat.zero_le 5

theorem serveFits_reset : ServeFits ServeEngine.reset := by decide

theorem lineCounts_reset : LineCounts LineController.reset := by decide

theorem peersFit_nil : PeersFit [] := ⟨Nat.zero_le _, List.nodup_nil, List.nodup_nil, nofun⟩

theorem bounded_deviceReset (pins : Pins) (s : State) : Bounded (deviceReset pins s) :=
  ⟨fetchFits_reset, serveFits_reset, peersFit_nil, lineCounts_reset⟩

theorem Small.bounded (h : Small s t) (hs : Bounded s) : Bounded t := by
  obtain ⟨hf, hv, hp, hl⟩ := hs
  cases h with
  | submit q j =>
    have only := submit_only q j s
    rw [Bounded, only.fetch, only.serve, only.notice, only.line]
    exact ⟨hf, hv, hp, hl⟩
  | pickJob =>
    have only := pickJob_only s
    rw [Bounded, only.fetch, only.serve, only.notice, only.line]
    exact ⟨hf, hv, hp, hl⟩
  | txSubmit f o =>
    refine ⟨?_, ?_, ?_, ?_⟩ <;> (unfold Machine.txSubmit; split <;> assumption)
  | line l _ _ counts => exact ⟨hf, hv, hp, counts hl⟩
  | relink l _ _ counts => exact ⟨hf, hv, hp, counts hl⟩
  | notice n _ fits => exact ⟨hf, hv, fits hp, hl⟩
  | serve v _ fits => exact ⟨hf, fits hv, hp, hl⟩
  | fetch f _ fits => exact ⟨fits hf, hv, hp, hl⟩
  | deviceReset => exact bounded_deviceReset ..
  | _ => exact ⟨hf, hv, hp, hl⟩

theorem Origin.bounded {c : Instr} {o : State} (h : Origin c s o) (hs : Bounded s) : Bounded o := by
  cases h with
  | reset => exact bounded_deviceReset ..
  | _ => exact hs

/-- Settles O8, over the small changes, each of which names the bounds it keeps. -/
theorem boundsKept : Obligations.BoundsKept := by
  unfold Obligations.BoundsKept
  intro s t
  exact step_keeps (P := Bounded) (fun _ _ => Small.bounded) (fun _ _ _ => Origin.bounded) (fun _ _ hs => hs)

/-! ## The link -/

theorem LinkLegal.running_of_relink (hs : LinkLegal s)
    (hr : s.startUp.stage = .running ∨ s.line.link ≠ .offline ∨ s.line.listen ≠ .stopped) : s.startUp.stage = .running := by
  obtain ⟨early, timer⟩ := hs
  by_contra waking
  have offline := early waking
  rcases hr with running | online | listening
  · exact waking running
  · exact online offline
  · exact absurd (offline.symm.trans (timer listening)) (by decide)

theorem linkLegal_deviceReset (pins : Pins) (s : State) : LinkLegal (deviceReset pins s) :=
  ⟨fun _ => rfl, fun h => absurd rfl h⟩

theorem Small.linkLegal (h : Small s t) (hs : LinkLegal s) : LinkLegal t := by
  obtain ⟨early, timer⟩ := hs
  cases h with
  | startUp u _ stage =>
    refine ⟨fun waking => early fun running => waking ?_, timer⟩
    rcases stage with same | running'
    · exact same.trans running
    · exact running'
  | submit q j =>
    have only := submit_only q j s
    rw [LinkLegal, only.startUp, only.line]
    exact ⟨early, timer⟩
  | pickJob =>
    have only := pickJob_only s
    rw [LinkLegal, only.startUp, only.line]
    exact ⟨early, timer⟩
  | txSubmit f o => unfold Machine.txSubmit; split <;> exact ⟨early, timer⟩
  | line l _ _ _ link listen =>
    refine ⟨fun waking => link.trans (early waking), fun listening => link.trans ?_⟩
    exact (listen listening).elim timer id
  | relink l _ _ _ awake listen =>
    have running := LinkLegal.running_of_relink ⟨early, timer⟩ awake
    refine ⟨fun waking => absurd running waking, fun listening => ?_⟩
    exact (listen listening).elim id fun ⟨ticking, away⟩ => absurd (timer ticking) away
  | deviceReset => exact linkLegal_deviceReset ..
  | _ => exact ⟨early, timer⟩

theorem Origin.linkLegal {c : Instr} {o : State} (h : Origin c s o) (hs : LinkLegal s) : LinkLegal o := by
  obtain ⟨early, timer⟩ := hs
  cases h with
  | reset => exact linkLegal_deviceReset ..
  | begins pins _ held => exact ⟨fun _ => early (by rw [held]; decide), timer⟩
  | handed reading => exact ⟨fun _ => early (by rw [reading]; decide), timer⟩
  | _ => exact ⟨early, timer⟩

/-- Settles O9, over the small changes: a link that is OFFLINE before RUNNING is none that a link change starts from. -/
theorem linkKept : Obligations.LinkKept := by
  unfold Obligations.LinkKept
  intro s t
  exact step_keeps (P := LinkLegal) (fun _ _ => Small.linkLegal) (fun _ _ _ => Origin.linkLegal) (fun _ _ hs => hs)

/-! ## The state after a device reset -/

theorem reset_service : State.reset.flash.service = none := rfl

/-- Settles O11: every table is empty, no job is in service, and the array lists no cell. -/
theorem resetMeetsInvariants : Obligations.ResetMeetsInvariants := by
  unfold Obligations.ResetMeetsInvariants
  refine ⟨reset_memory_wf, EventList.nil, requestQueuesFit_reset, fun _ => Nat.zero_le _,
    ⟨fetchFits_reset, serveFits_reset, peersFit_nil, lineCounts_reset⟩,
    ⟨fun _ => rfl, fun listening => absurd rfl listening⟩, fun v hv => ?_, fun v hv => ?_,
    fun _ => ⟨rfl, rfl, rfl, rfl, rfl, rfl⟩⟩
  · cases reset_service.symm.trans hv
  · cases reset_service.symm.trans hv

/-! ## The frame of every command -/

theorem run_appendRecord {left : LastLeft} (h : exec (.appendRecord left) s = .next t) :
    ∃ v, Work (leaveContent v left.content (strapPins left.straps s)) t := by
  change execAppendRecord left s = _ at h
  unfold execAppendRecord at h
  split at h
  · rename_i v _
    split at h
    · rw [← next_inj h]
      refine ⟨v, Work.op_settle (Work.op_endService ?_)⟩
      split
      · exact (Work.refl _).op_controlDone
      · exact (Work.refl _).op_controlFailed
    · cases h
  · cases h

theorem run_overtime {left : LastLeft} (h : exec (.overtime left) s = .next t) :
    ∃ v, Work (leaveContent v left.content (strapPins left.straps s)) t := by
  change execOvertime left s = _ at h
  unfold execOvertime at h
  split at h
  · rename_i v _
    split at h
    · split at h
      · rename_i stopped
        rw [← next_inj h]
        exact ⟨v, (Work.op_operationOvertime stopped).op_settle⟩
      · cases h
    · cases h
  · cases h

/-- The two commands that bring strap levels beside their effect do so before anything else (R193, R210). -/
theorem run_strapped {c : Instr} {straps : Straps} (hb : strapsBrought c = some straps) (h : exec c s = .next t) :
    ∃ v left, Work (leaveContent v left (strapPins straps s)) t := by
  cases c with
  | appendRecord left =>
    cases hb
    obtain ⟨v, work⟩ := run_appendRecord h
    exact ⟨v, _, work⟩
  | overtime left =>
    cases hb
    obtain ⟨v, work⟩ := run_overtime h
    exact ⟨v, _, work⟩
  | _ => cases hb

theorem cutShort_pending (left : Left) (s : State) : (cutShort left s).pending = s.pending := by
  unfold cutShort
  split <;> rfl

theorem Origin.pending {c : Instr} {o : State} (h : Origin c s o) : o.pending = s.pending := by
  cases h with
  | reset p pins left => exact cutShort_pending left { s with port := p }
  | _ => rfl

theorem Origin.pins {c : Instr} {o : State} (h : Origin c s o) (still : movesPins c = false) (hb : strapsBrought c = none) :
    o.pins = s.pins := by
  cases h with
  | reset p pins left hw moves => exact absurd moves (by simp [still])
  | begins pins moves => exact absurd moves (by simp [still])
  | strapped v left straps hw brings => exact absurd (brings.symm.trans hb) (by simp)
  | _ => rfl

/-- Settles O2: a run of small changes leaves queue and pins, and an origin brings pins only as its command does. -/
theorem commandKeepsQueueAndPins : Obligations.CommandKeepsQueueAndPins := by
  unfold Obligations.CommandKeepsQueueAndPins
  intro c s t h
  obtain ⟨o, origin, work⟩ := exec_runs c s t h
  obtain ⟨-, queue, pins⟩ := work.frame
  refine ⟨queue.trans origin.pending, fun still => ?_⟩
  cases hb : strapsBrought c with
  | none => exact pins.trans (origin.pins still hb)
  | some straps =>
    obtain ⟨v, left, strapped⟩ := run_strapped hb h
    exact strapped.frame.2.2

/-! ## The array of every command -/

/-- The array at an origin: as it was, or as the operation in service leaves it. -/
theorem Origin.mem {c : Instr} {o : State} (h : Origin c s o) :
    (writesArray c = false → o.mem = s.mem) ∧
      (o.mem = s.mem ∨ ∃ (v : Service) (left : Left), s.flash.service = some v ∧ o.mem = operationLeaves s v left) := by
  cases h with
  | array v left writes _ hv => exact ⟨fun none => absurd writes (by simp [none]), .inr ⟨v, left, hv, rfl⟩⟩
  | strapped v left straps writes _ hv => exact ⟨fun none => absurd writes (by simp [none]), .inr ⟨v, left, hv, rfl⟩⟩
  | reset p pins left writes =>
    refine ⟨fun none => absurd writes (by simp [none]), ?_⟩
    show (cutShort left { s with port := p }).mem = _ ∨ ∃ v l, _ ∧ (cutShort left { s with port := p }).mem = _
    unfold cutShort
    split
    · exact .inl rfl
    · rename_i v hv
      exact .inr ⟨v, left, hv, rfl⟩
  | _ => exact ⟨fun _ => rfl, .inl rfl⟩

/-- Settles O3: a run of small changes leaves the array, and its origin writes what the operation in service leaves. -/
theorem onlyArrayCommandsWrite : Obligations.OnlyArrayCommandsWrite := by
  unfold Obligations.OnlyArrayCommandsWrite
  intro c s t h
  obtain ⟨o, origin, work⟩ := exec_runs c s t h
  rw [work.frame.1]
  exact origin.mem

/-! ## The units of the active slot -/

/-- Where the fold of R9 ends: at its start, or at the last entry that names the block. -/
theorem foldl_currentUnit (x : Slot) (b : Block) (l : List (SparePos × Nat)) (u : Nat) :
    l.foldl (fun u e => if e.1 = .valid x b then 518 + e.2 else u) u = u ∨
      ∃ e ∈ l, e.1 = .valid x b ∧ l.foldl (fun u e => if e.1 = .valid x b then 518 + e.2 else u) u = 518 + e.2 := by
  induction l generalizing u with
  | nil => exact .inl rfl
  | cons e l ih =>
    rw [List.foldl_cons]
    rcases ih (if e.1 = .valid x b then 518 + e.2 else u) with stays | ⟨d, hd, named, ends⟩
    · rw [stays]
      split
      · rename_i named
        exact .inr ⟨e, List.mem_cons_self .., named, rfl⟩
      · exact .inl rfl
    · exact .inr ⟨d, List.mem_cons_of_mem _ hd, named, ends⟩

/-- A block's current unit is its home unit or a spare whose entry names it (R9). -/
theorem currentUnit_cases (spares : Vector SparePos 8) (x : Slot) (b : Block) :
    currentUnit spares x b = homeUnit x b ∨
      ∃ p, spares.toList[p]? = some (.valid x b) ∧ currentUnit spares x b = 518 + p := by
  rcases foldl_currentUnit x b spares.toList.zipIdx (homeUnit x b) with home | ⟨e, he, named, ends⟩
  · exact .inl home
  · exact .inr ⟨e.2, named ▸ List.mem_zipIdx_iff_getElem?.mp he, ends⟩

theorem homeUnit_lt (x : Slot) (b : Block) : homeUnit x b < 512 := by
  cases x <;> simp only [homeUnit] <;> omega

/-- Blocks of two slots never share a unit (R1, R8, R9). -/
theorem currentUnit_ne_of_slot_ne (spares : Vector SparePos 8) {x y : Slot} (hxy : x ≠ y) (b c : Block) :
    currentUnit spares x b ≠ currentUnit spares y c := by
  have hx := homeUnit_lt x b
  have hy := homeUnit_lt y c
  rcases currentUnit_cases spares x b with ex | ⟨p, hp, ex⟩ <;> rcases currentUnit_cases spares y c with ey | ⟨q, hq, ey⟩
  · rw [ex, ey]
    have hb := b.isLt
    have hc := c.isLt
    match x, y with
    | .a, .b => simp only [homeUnit]; omega
    | .b, .a => simp only [homeUnit]; omega
    | .a, .a => exact absurd rfl hxy
    | .b, .b => exact absurd rfl hxy
  · omega
  · omega
  · intro same
    obtain rfl : p = q := by omega
    cases Option.some.inj (hp.symm.trans hq)
    exact hxy rfl

theorem controlNumber_range (u : ControlUnit) : 512 ≤ controlNumber u ∧ controlNumber u ≤ 517 := by
  cases u <;> decide

/-- No block's current unit is a control unit (R1, R9). -/
theorem currentUnit_ne_control (spares : Vector SparePos 8) (x : Slot) (b : Block) {u : Nat} (hu : 512 ≤ u ∧ u ≤ 517) :
    currentUnit spares x b ≠ u := by
  have home := homeUnit_lt x b
  rcases currentUnit_cases spares x b with e | ⟨p, -, e⟩ <;> omega

theorem length_spareEntryBytes (x : Slot) (b : Block) (p : Fin 8) : (spareEntryBytes x b p).length = 8 := rfl

theorem length_segmentPattern {o : Nat} {bytes : List Byte} (h : o + bytes.length ≤ 128) :
    (segmentPattern o bytes).length = 128 := by
  simp only [segmentPattern, List.length_append, List.length_replicate]
  omega

theorem length_entryContent (v : Service) (p : Fin 8) : (entryContent v p).length ≤ 8 := by
  unfold entryContent
  split
  · exact (length_spareEntryBytes ..).le
  · exact Nat.zero_le 8

theorem length_recordBytes (r : CommitRecord) : (recordBytes r).length = 64 := rfl

theorem length_contentBytes (c : RecordContent) : (contentBytes c).length = 64 := by
  cases c with
  | record r => exact length_recordBytes r
  | voided => rfl

/-- Where the program of an operation that spares the active slot stands: inside one unit, and none of that slot. -/
theorem operationProgram_spares {v : Service} (h : sparesActive s v = true) {u o : Nat} {pattern : List Byte}
    (hp : operationProgram s v = some (u, o, pattern)) :
    o + pattern.length ≤ 2048 ∧ ∀ b, currentUnit s.flash.spares s.cat.activeSlot b ≠ u := by
  unfold operationProgram at hp
  split at hp
  · rename_i p _
    cases hp
    have hc := length_entryContent v p
    refine ⟨?_, fun b => currentUnit_ne_control _ _ _ (by decide)⟩
    rw [length_segmentPattern (by omega)]
    decide
  · unfold programRun at hp
    unfold sparesActive at h
    split at hp
    · rename_i req x b g d hj
      rw [hj] at h
      cases hp
      simp only [Bool.and_eq_true, decide_eq_true_eq] at h
      obtain ⟨other, hd⟩ := h
      exact ⟨by omega, fun c => currentUnit_ne_of_slot_ne _ other.symm c b⟩
    · cases hp
      refine ⟨?_, fun b => currentUnit_ne_control _ _ _ (by decide)⟩
      rw [length_segmentPattern (by simp [nodeBytes, bytes16])]
      decide
    · rename_i x b hj
      cases hp
      exact ⟨by rw [length_markPattern]; decide, fun c => currentUnit_ne_control _ _ _ (controlNumber_range _)⟩
    · rename_i w q c hj
      rw [hj] at h
      cases hp
      simp only [Bool.and_eq_true, decide_eq_true_eq] at h
      obtain ⟨hq, -⟩ := h
      have hc := length_contentBytes c
      refine ⟨?_, fun b => currentUnit_ne_control _ _ _ (controlNumber_range _)⟩
      rw [length_segmentPattern (by omega)]
      omega
    · cases hp
  · cases hp
  · cases hp

/-- The unit that an erase of an operation that spares the active slot acts on is none of that slot. -/
theorem eraseTarget_spares {v : Service} {n : Nat} (h : sparesActive s v = true) (ho : v.op = .erase n) (b : Block) :
    currentUnit s.flash.spares s.cat.activeSlot b ≠ eraseTarget s v.job := by
  unfold sparesActive at h
  unfold eraseTarget
  cases hj : v.job with
  | eraseControl u => exact currentUnit_ne_control _ _ _ (controlNumber_range u)
  | eraseUnit req x c =>
    rw [hj] at h
    exact currentUnit_ne_of_slot_ne _ (Ne.symm (by simpa using h)) b c
  | programSegment req x c g d =>
    rw [hj] at h
    simp only [Bool.and_eq_true, decide_eq_true_eq] at h
    obtain ⟨other, -⟩ := h
    exact currentUnit_ne_of_slot_ne _ other.symm b c
  | _ => simp [hj, ho] at h

/-- An operation that spares the active slot changes no byte of its current units. -/
theorem read_operationLeaves_spared {v : Service} {left : Left} (hm : Memory.wf s.mem) (h : sparesActive s v = true)
    (b : Block) {i : Nat} (hi : i < 2048) :
    Memory.read (operationLeaves s v left) (unitAddr (currentUnit s.flash.spares s.cat.activeSlot b) i) =
      Memory.read s.mem (unitAddr (currentUnit s.flash.spares s.cat.activeSlot b) i) := by
  unfold operationLeaves
  split
  · rename_i n ho
    have other := eraseTarget_spares h ho b
    rw [read_eraseLeaving hm, if_neg]
    unfold unitAddr
    omega
  · split
    · rename_i u o pattern hp
      obtain ⟨fits, others⟩ := operationProgram_spares h hp
      have other := others b
      rw [read_programLeaving hm, if_neg]
      unfold unitAddr
      omega
    · rfl

/-- Settles O4: what the operation in service writes lies in one unit, and that is none of the active slot's. -/
theorem activeSlotUntouched : Obligations.ActiveSlotUntouched := by
  unfold Obligations.ActiveSlotUntouched
  intro c s t h hm spared b i hi
  obtain ⟨o, origin, work⟩ := exec_runs c s t h
  rw [work.frame.1]
  rcases origin.mem.2 with same | ⟨v, left, hv, leaves⟩
  · rw [same]
  · rw [leaves]
    exact read_operationLeaves_spared hm (spared v hv) b hi

end Sys2Proof.Machine
end

section
/-! SUPPORT. FORMATS: the fields of a layout read back at their offsets, and with them command frames, line frames and the
contents of the control units (R8, R10, R11, R70 to R72, R154, R212 to R217). -/

namespace Sys2Proof.Machine

/-! ## Fields of a layout -/

theorem byteAt_zero (b : Byte) (l : List Byte) : byteAt (b :: l) 0 = b := rfl

theorem byteAt_succ (b : Byte) (l : List Byte) (i : Nat) : byteAt (b :: l) (i + 1) = byteAt l i := rfl

theorem byteAt_append_left {l : List Byte} {i : Nat} (h : i < l.length) (r : List Byte) : byteAt (l ++ r) i = byteAt l i := by
  simp only [byteAt, List.getD_eq_getElem?_getD, List.getElem?_append_left h]

theorem byteAt_append_right (l r : List Byte) (i : Nat) : byteAt (l ++ r) (l.length + i) = byteAt r i := by
  simp only [byteAt, List.getD_eq_getElem?_getD, List.getElem?_append_right (Nat.le_add_right ..), Nat.add_sub_cancel_left]

theorem field16_append_left {l : List Byte} {i : Nat} (h : i + 1 < l.length) (r : List Byte) :
    field16 (l ++ r) i = field16 l i := by
  simp only [field16, byteAt_append_left h, byteAt_append_left (Nat.lt_of_succ_lt h)]

theorem field16_append_right (l r : List Byte) (i : Nat) : field16 (l ++ r) (l.length + i) = field16 r i := by
  simp only [field16, Nat.add_assoc, byteAt_append_right]

theorem field32_append_left {l : List Byte} {i : Nat} (h : i + 3 < l.length) (r : List Byte) :
    field32 (l ++ r) i = field32 l i := by
  simp only [field32, byteAt_append_left h, byteAt_append_left (show i < l.length by omega),
    byteAt_append_left (show i + 1 < l.length by omega), byteAt_append_left (show i + 2 < l.length by omega)]

theorem field32_append_right (l r : List Byte) (i : Nat) : field32 (l ++ r) (l.length + i) = field32 r i := by
  simp only [field32, Nat.add_assoc, byteAt_append_right]

theorem field16_bytes16 (v : BitVec 16) (r : List Byte) : field16 (bytes16 v ++ r) 0 = v := by
  simp only [field16, bytes16, byteAt, List.cons_append, List.getD_cons_zero, List.getD_cons_succ]
  ext i hi
  simp only [BitVec.getElem_append, BitVec.getElem_extractLsb']
  split
  · simp [hi]
  · rw [show 8 + (i - 8) = i by omega, BitVec.getLsbD_eq_getElem hi]

theorem field32_bytes32 (v : BitVec 32) (r : List Byte) : field32 (bytes32 v ++ r) 0 = v := by
  simp only [field32, bytes32, byteAt, List.cons_append, List.getD_cons_zero, List.getD_cons_succ]
  ext i hi
  simp only [BitVec.getElem_append, BitVec.getElem_extractLsb']
  split
  · simp [hi]
  · split
    · rw [show 8 + (i - 8) = i by omega, BitVec.getLsbD_eq_getElem hi]
    · split
      · rw [show 16 + (i - 8 - 8) = i by omega, BitVec.getLsbD_eq_getElem hi]
      · rw [show 24 + (i - 8 - 8 - 8) = i by omega, BitVec.getLsbD_eq_getElem hi]

theorem keyAt_append_right (l r : List Byte) (i : Nat) : keyAt (l ++ r) (l.length + i) = keyAt r i := by
  simp only [keyAt, Nat.add_assoc, field16_append_right, field32_append_right]

theorem keyAt_keyBytes (k : Key) (r : List Byte) : keyAt (keyBytes k ++ r) 0 = k := by
  have version := field16_append_right (bytes16 k.family) (bytes16 k.version ++ (bytes32 k.digest ++ r)) 0
  have digest := field32_append_right (bytes16 k.family ++ bytes16 k.version) (bytes32 k.digest ++ r) 0
  rw [field16_bytes16] at version
  rw [field32_bytes32, List.append_assoc] at digest
  have split : keyBytes k ++ r = bytes16 k.family ++ (bytes16 k.version ++ (bytes32 k.digest ++ r)) := by
    simp only [keyBytes, List.append_assoc]
  rw [keyAt, split]
  exact congrArg₂ (fun v d => Key.mk _ v d) version digest |>.trans (by rw [field16_bytes16])

theorem length_keyBytes (k : Key) : (keyBytes k).length = 8 := rfl

theorem ofNat_val_toFin (b : Block) : (BitVec.ofNat 8 b.val).toFin = b := by
  apply Fin.ext
  simp

/-! ## Command frames (R154, R156) -/

theorem commandOf_commandCode (c : HostCommand) : commandOf (commandCode c) = some c := by
  cases c <;> rfl

/-- Settles O12: each check of R156 passes on the frame's own bytes, whatever comes after them. -/
theorem commandFrameReadsBack : Obligations.CommandFrameReadsBack := by
  unfold Obligations.CommandFrameReadsBack
  intro c params extra hp
  have len : (BitVec.ofNat 8 params.length).toNat = params.length := by
    rw [BitVec.toNat_ofNat]
    exact Nat.mod_eq_of_lt (by omega)
  generalize hbody : commandCode c :: BitVec.ofNat 8 params.length :: params = body
  have hlen : body.length = 2 + params.length := by rw [← hbody, List.length_cons, List.length_cons]; omega
  have frame : commandFrame c params ++ extra = body ++ ([crc8 body] ++ extra) := by
    rw [commandFrame, hbody, List.append_assoc]
  have code : byteAt (body ++ ([crc8 body] ++ extra)) 0 = commandCode c := by rw [← hbody]; rfl
  have size : (byteAt (body ++ ([crc8 body] ++ extra)) 1).toNat = params.length := by
    rw [← len, ← hbody]
    rfl
  have check : byteAt (body ++ ([crc8 body] ++ extra)) (2 + params.length) = crc8 body := by
    rw [← hlen]
    exact byteAt_append_right body _ 0
  have front : (body ++ ([crc8 body] ++ extra)).take (2 + params.length) = body := by rw [← hlen, List.take_left]
  have field : ((body ++ ([crc8 body] ++ extra)).drop 2).take params.length = params := by
    rw [← hbody]
    exact List.take_left
  have total : 3 + params.length ≤ (body ++ ([crc8 body] ++ extra)).length := by
    rw [List.length_append, List.length_append, List.length_singleton, hlen]
    omega
  rw [frame, judgeFrame, size, code, commandOf_commandCode, if_neg (by omega), if_neg (by omega), if_neg (by rw [check, front]; simp), field]

/-! ## Control units (R7, R8, R10, R11) -/

theorem slotCode_eq_iff (x y : Slot) : slotCode x = slotCode y ↔ x = y := by cases x <;> cases y <;> decide

theorem activeSlotOf_code (x : Option Slot) : activeSlotOf (activeSlotCode x) = some x := by
  match x with
  | none => rfl
  | some .a => rfl
  | some .b => rfl

theorem stagingRoleOf_code (r : StagingRole) : stagingRoleOf (stagingRoleCode r) = some r := by
  cases r <;> rfl

/-- A key that a record may hold is none whose sent form is that of an absent key (R11, R212). -/
theorem keyRead_keySent {k : Option Key} (h : legalRecordKey k = true) : keyRead (keySent k) = k := by
  cases k with
  | none => rfl
  | some k =>
    simp only [legalRecordKey, Bool.and_eq_true, decide_eq_true_eq] at h
    obtain ⟨-, version⟩ := h
    refine if_neg fun none => version ?_
    rw [show k = Key.noneForm from none]
    rfl

/-- The fields of a record's bytes, at their offsets (R10, R213). -/
theorem recordBytes_split (r : CommitRecord) (c : List Byte) :
    recordBody r ++ c = bytes32 r.seq ++ ([activeSlotCode r.active, stagingRoleCode r.role] ++
      (keyBytes (keySent r.activeKey) ++ (keyBytes (keySent r.stagingKey) ++ (bytes16 r.declined ++
        (bytes16 r.floor ++ (List.replicate 34 0 ++ c)))))) := by
  simp only [recordBody, List.append_assoc]

theorem length_recordBody (r : CommitRecord) : (recordBody r).length = 60 := rfl

theorem recordBytes_activeKey (r : CommitRecord) : keyAt (recordBytes r) 6 = keySent r.activeKey := by
  rw [recordBytes, recordBytes_split, ← List.append_assoc]
  exact (keyAt_append_right _ _ 0).trans (keyAt_keyBytes ..)

theorem recordBytes_stagingKey (r : CommitRecord) : keyAt (recordBytes r) 14 = keySent r.stagingKey := by
  rw [recordBytes, recordBytes_split, ← List.append_assoc, ← List.append_assoc]
  exact (keyAt_append_right _ _ 0).trans (keyAt_keyBytes ..)

theorem recordBytes_declined (r : CommitRecord) : field16 (recordBytes r) 22 = r.declined := by
  rw [recordBytes, recordBytes_split, ← List.append_assoc, ← List.append_assoc, ← List.append_assoc]
  exact (field16_append_right _ _ 0).trans (field16_bytes16 ..)

theorem recordBytes_floor (r : CommitRecord) : field16 (recordBytes r) 24 = r.floor := by
  rw [recordBytes, recordBytes_split, ← List.append_assoc, ← List.append_assoc, ← List.append_assoc, ← List.append_assoc]
  exact (field16_append_right _ _ 0).trans (field16_bytes16 ..)

theorem recordBytes_seq (r : CommitRecord) : field32 (recordBytes r) 0 = r.seq := by
  rw [recordBytes, recordBytes_split]
  exact field32_bytes32 ..

theorem recordBytes_check (r : CommitRecord) : field32 (recordBytes r) 60 = crc32 ((recordBytes r).take 60) := by
  have front : (recordBytes r).take 60 = recordBody r := List.take_left (l₁ := recordBody r)
  rw [front]
  exact (field32_append_right (recordBody r) _ 0).trans (by simpa using field32_bytes32 (crc32 (recordBody r)) [])

theorem recordBytes_reserved (r : CommitRecord) : ((recordBytes r).drop 26).take 34 = List.replicate 34 0 := by
  rw [recordBytes, recordBytes_split]
  rfl

theorem recordBytes_ne_erased (r : CommitRecord) : recordBytes r ≠ List.replicate 64 erasedByte := by
  intro erased
  have zero := recordBytes_reserved r
  rw [erased] at zero
  exact absurd zero (by decide)

/-- A well-formed record is VALID at the next reading, with every field (R10, R11). -/
theorem recordReading_recordBytes {r : CommitRecord} (h : recordWellFormed r = true) :
    recordReading (recordBytes r) = .valid r := by
  have keys : legalRecordKey r.activeKey = true ∧ legalRecordKey r.stagingKey = true := by
    simp only [recordWellFormed, Bool.and_eq_true] at h
    exact ⟨h.1.1.1.1.2, h.1.1.1.2⟩
  have slot : byteAt (recordBytes r) 4 = activeSlotCode r.active := rfl
  have role : byteAt (recordBytes r) 5 = stagingRoleCode r.role := rfl
  rw [recordReading, if_neg (recordBytes_ne_erased r), ← recordBytes_check, recordBytes_reserved, slot, role,
    activeSlotOf_code, stagingRoleOf_code, recordBytes_seq, recordBytes_activeKey, recordBytes_stagingKey,
    recordBytes_declined, recordBytes_floor, keyRead_keySent keys.1, keyRead_keySent keys.2]
  simp only [decide_true, Bool.and_self, if_true]
  rw [if_pos h]

/-- A spare map entry is VALID in its own position and VOID in every other (R8). -/
theorem spareReading_spareEntryBytes (x : Slot) (b : Block) (p q : Fin 8) :
    spareReading q (spareEntryBytes x b p) = if q = p then .valid x b else .void := by
  have position : byteAt (spareEntryBytes x b p) 2 = BitVec.ofNat 8 p.val := rfl
  have block : byteAt (spareEntryBytes x b p) 1 = BitVec.ofNat 8 b.val := rfl
  have slot : byteAt (spareEntryBytes x b p) 0 = slotCode x := rfl
  have reserved : byteAt (spareEntryBytes x b p) 3 = 0 := rfl
  have check : field32 (spareEntryBytes x b p) 4 = crc32 ((spareEntryBytes x b p).take 4) :=
    (field32_append_right [slotCode x, BitVec.ofNat 8 b.val, BitVec.ofNat 8 p.val, 0] _ 0).trans
      ((congrArg (field32 · 0) (List.append_nil _).symm).trans (field32_bytes32 _ []))
  have used : spareEntryBytes x b p ≠ List.replicate 8 erasedByte := by
    intro erased
    rw [erased] at reserved
    exact absurd reserved (by decide)
  have same : BitVec.ofNat 8 p.val = BitVec.ofNat 8 q.val ↔ q = p := by
    rw [← BitVec.toNat_inj, BitVec.toNat_ofNat, BitVec.toNat_ofNat, Nat.mod_eq_of_lt (by omega), Nat.mod_eq_of_lt (by omega),
      Fin.ext_iff, eq_comm]
  rw [spareReading, if_neg used, position, block, slot, reserved, check]
  by_cases own : q = p
  · rw [if_pos own, if_pos (by simp [same.mpr own]), ofNat_val_toFin]
    cases x <;> rfl
  · rw [if_neg own, if_neg (by simp [same, own])]

/-- The node part that IDENT programs reads CONFIGURED exactly for a legal family (R7). -/
theorem nodeReading_nodeBytes (f : BitVec 16) :
    nodeReading (nodeBytes f) = if legalFamily f then .configured else .spoiled := by
  have family : field16 (nodeBytes f) 0 = f := field16_bytes16 ..
  have complement : field16 (nodeBytes f) 2 = ~~~ f :=
    (field16_append_right (bytes16 f) _ 0).trans (by simpa using field16_bytes16 (~~~ f) [])
  have used : nodeBytes f ≠ [0xFF, 0xFF, 0xFF, 0xFF] := by
    intro blank
    rw [blank] at family complement
    rw [← family] at complement
    exact absurd complement (by decide)
  rw [nodeReading, if_neg used, family, complement]
  simp

/-- Settles O14, content by content. -/
theorem controlUnitsReadBack : Obligations.ControlUnitsReadBack := by
  unfold Obligations.ControlUnitsReadBack
  exact ⟨fun r h => ⟨rfl, recordReading_recordBytes h⟩, spareReading_spareEntryBytes, nodeReading_nodeBytes⟩

/-! ## Line frames (R70 to R72, R212, R214) -/

/-- The removal of inserted bits undoes their insertion (R70). -/
theorem removeBits_insertBits (prev : Bool) (run : Nat) (bits : List Bool) :
    removeBits prev run (insertBits prev run bits) = some bits := by
  induction bits generalizing prev run with
  | nil => rfl
  | cons b bs ih =>
    by_cases full : (if b = prev then run + 1 else 1) = 6
    · rw [insertBits, if_pos full, removeBits.eq_def]
      dsimp only
      rw [if_pos full, ih, if_neg (by simp)]
      rfl
    · rw [insertBits, if_neg full, removeBits.eq_def]
      dsimp only
      rw [if_neg full, ih]
      rfl

theorem length_msbFirst (b : Byte) : (msbFirst b).length = 8 := rfl

theorem bitsNat_msbFirst (b : Byte) : bitsNat (msbFirst b) = b.toNat := by
  revert b
  decide

theorem bitsBytes_flatMap (payload : List Byte) (rest : List Bool) :
    bitsBytes payload.length (payload.flatMap msbFirst ++ rest) = payload := by
  induction payload with
  | nil => rfl
  | cons b bs ih =>
    have front (l : List Bool) : (msbFirst b ++ l).take 8 = msbFirst b := List.take_left (l₁ := msbFirst b)
    have rest' (l : List Bool) : (msbFirst b ++ l).drop 8 = l := List.drop_left (l₁ := msbFirst b)
    rw [List.length_cons, bitsBytes, List.flatMap_cons, List.append_assoc, front, rest', ih, bitsNat_msbFirst,
      BitVec.ofNat_toNat, BitVec.setWidth_eq]

theorem length_flatMap_msbFirst (payload : List Byte) : (payload.flatMap msbFirst).length = 8 * payload.length := by
  induction payload with
  | nil => rfl
  | cons b bs ih => rw [List.flatMap_cons, List.length_append, ih, length_msbFirst, List.length_cons]; omega

/-- The three bits of a class and the seven of a source address, most significant first (R71). -/
def classBits (c : BitVec 3) : List Bool := [c.getLsbD 2, c.getLsbD 1, c.getLsbD 0]

/-- The seven bits of a source address, most significant first (R71). -/
def addrBits (a : Addr) : List Bool :=
  [a.getLsbD 6, a.getLsbD 5, a.getLsbD 4, a.getLsbD 3, a.getLsbD 2, a.getLsbD 1, a.getLsbD 0]

theorem claimBits_eq (cls : Nat) (src : Addr) : claimBits cls src = classBits (BitVec.ofNat 3 cls) ++ addrBits src := by
  simp only [claimBits, classBits, addrBits, BitVec.getLsbD_append]
  rfl

theorem bitsNat_classBits (c : BitVec 3) : bitsNat (classBits c) = c.toNat := by
  revert c
  decide

theorem bitsNat_addrBits (a : Addr) : bitsNat (addrBits a) = a.toNat := by
  revert a
  decide

/-- A frame's covered bits and their CRC-16 read back as class, source and payload where the format checks pass. -/
theorem receiveClean_covered {cls : Nat} {src : Addr} {payload : List Byte} (hc : cls < 8)
    (hl : 9 ≤ payload.length) (hu : payload.length ≤ 138) (format : formatOk cls src payload = true) :
    receiveClean (false :: (coveredBits cls src payload ++ crcBits (crc16 (coveredBits cls src payload)))) =
      .good cls src payload := by
  generalize hcode : crc16 (coveredBits cls src payload) = code
  have size : (BitVec.ofNat 8 payload.length).toNat = payload.length := by
    rw [BitVec.toNat_ofNat]
    exact Nat.mod_eq_of_lt (by omega)
  have hlen : (coveredBits cls src payload).length = 18 + 8 * payload.length := by
    simp only [coveredBits, List.length_append, length_msbFirst, length_flatMap_msbFirst]
    rfl
  have hbits : false :: (coveredBits cls src payload ++ crcBits code) =
      false :: (classBits (BitVec.ofNat 3 cls) ++ (addrBits src ++ (msbFirst (BitVec.ofNat 8 payload.length) ++
        (payload.flatMap msbFirst ++ crcBits code)))) := by
    simp only [coveredBits, claimBits_eq, List.append_assoc]
  have hclass : bitsNat (((false :: (coveredBits cls src payload ++ crcBits code)).drop 1).take 3) = cls := by
    rw [hbits]
    refine (bitsNat_classBits _).trans ?_
    rw [BitVec.toNat_ofNat]
    exact Nat.mod_eq_of_lt hc
  have hsrc : BitVec.ofNat 7 (bitsNat (((false :: (coveredBits cls src payload ++ crcBits code)).drop 4).take 7)) = src := by
    rw [hbits]
    refine (congrArg (BitVec.ofNat 7) (bitsNat_addrBits src)).trans ?_
    rw [BitVec.ofNat_toNat, BitVec.setWidth_eq]
  have hcount : bitsNat (((false :: (coveredBits cls src payload ++ crcBits code)).drop 11).take 8) = payload.length := by
    rw [hbits]
    exact (bitsNat_msbFirst _).trans size
  have hpayload : bitsBytes payload.length ((false :: (coveredBits cls src payload ++ crcBits code)).drop 19) = payload := by
    rw [hbits]
    exact bitsBytes_flatMap payload (crcBits code)
  have htotal : (false :: (coveredBits cls src payload ++ crcBits code)).length = 35 + 8 * payload.length := by
    rw [List.length_cons, List.length_append, hlen, show (crcBits code).length = 16 from rfl]
    omega
  have hcovered : ((false :: (coveredBits cls src payload ++ crcBits code)).drop 1).take (18 + 8 * payload.length) =
      coveredBits cls src payload := by
    rw [← hlen]
    exact List.take_left
  have hcheck : (false :: (coveredBits cls src payload ++ crcBits code)).drop (19 + 8 * payload.length) = crcBits code := by
    rw [show 19 + 8 * payload.length = (coveredBits cls src payload).length + 1 by omega, List.drop_succ_cons, List.drop_left]
  rw [receiveClean]
  dsimp only
  rw [hcount, htotal, if_neg (by omega), if_neg (by simp; omega), if_neg (by simp), hcovered, hcode, hcheck, if_neg (by simp),
    hclass, hsrc, hpayload, if_pos format]

/-- A frame is one that this station can send: its masks and its target are legal, and a segment is whole (R72, R212). -/
def Frame.legal : Frame → Prop
  | .release _ _ => True
  | .offer _ _ m => m ≠ 0
  | .ask t _ _ m => t ≠ 127 ∧ m ≠ 0
  | .segment _ _ _ d => d.length = 128
  | .notice _ => True

theorem Frame.length_payloadBytes {f : Frame} (h : f.legal) : (payloadBytes f).length = classLength (frameClass f) := by
  cases f with
  | segment k b g d =>
    have whole : d.length = 128 := h
    simp only [payloadBytes, List.length_append, length_keyBytes, List.length_cons, List.length_nil, whole]
    rfl
  | _ => rfl

theorem offer_mask (k : Key) (b : Block) (m : Mask) : field16 (payloadBytes (.offer k b m)) 9 = m :=
  (field16_append_right (keyBytes k ++ [BitVec.ofNat 8 b.val]) (bytes16 m) 0).trans
    ((congrArg (field16 · 0) (List.append_nil _).symm).trans (field16_bytes16 m []))

theorem ask_mask (t : Addr) (k : Key) (b : Block) (m : Mask) : field16 (payloadBytes (.ask t k b m)) 10 = m :=
  (field16_append_right ([t.zeroExtend 8] ++ keyBytes k ++ [BitVec.ofNat 8 b.val]) (bytes16 m) 0).trans
    ((congrArg (field16 · 0) (List.append_nil _).symm).trans (field16_bytes16 m []))

theorem Frame.formatOk {f : Frame} (h : f.legal) {src : Addr} (hs : legalSource src = true) :
    formatOk (frameClass f) src (payloadBytes f) = true := by
  have length := Frame.length_payloadBytes h
  obtain ⟨zero, last⟩ : src ≠ 0 ∧ src ≠ 127 := by simpa [legalSource] using hs
  cases f with
  | release k n => simpa [Machine.formatOk, length, frameClass] using ⟨zero, last⟩
  | offer k b m =>
    have some : m ≠ 0 := h
    simpa [Machine.formatOk, length, frameClass, offer_mask] using ⟨⟨zero, last⟩, some⟩
  | ask t k b m =>
    obtain ⟨any, some⟩ : t ≠ 127 ∧ m ≠ 0 := h
    have target : (byteAt (payloadBytes (.ask t k b m)) 0).toNat ≤ 126 := by
      show (t.zeroExtend 8).toNat ≤ 126
      have : t.toNat ≠ 127 := fun e => any (BitVec.eq_of_toNat_eq e)
      have := t.isLt
      rw [BitVec.toNat_setWidth]
      omega
    simp only [frameClass] at length
    simpa [Machine.formatOk, length, frameClass, ask_mask, target] using ⟨⟨zero, last⟩, some⟩
  | segment k b g d =>
    have index : (byteAt (payloadBytes (.segment k b g d)) 9).toNat ≤ 15 := by
      show (BitVec.ofNat 8 g.val).toNat ≤ 15
      rw [BitVec.toNat_ofNat]
      omega
    simpa [Machine.formatOk, length, frameClass, index] using ⟨zero, last⟩
  | notice n => simpa [Machine.formatOk, length, frameClass] using ⟨zero, last⟩

theorem frameClass_le (f : Frame) : frameClass f ≤ 4 := by cases f <;> simp [frameClass]

theorem classLength_bounds : ∀ c ≤ 4, 9 ≤ classLength c ∧ classLength c ≤ 138 := by decide

theorem receiveBits_frameBits {f : Frame} (h : f.legal) {src : Addr} (hs : legalSource src = true) :
    receiveBits (frameBits src f) = .good (frameClass f) src (payloadBytes f) := by
  have length := Frame.length_payloadBytes h
  rw [receiveBits, frameBits, removeBits_insertBits]
  have cls := frameClass_le f
  obtain ⟨low, high⟩ := classLength_bounds _ cls
  exact receiveClean_covered (by omega) (by omega) (by omega) (Frame.formatOk h hs)

theorem noticeAt_payloadBytes (n : NoticeFrame) : noticeAt (payloadBytes (.notice n)) = n := by
  have active : keyAt (payloadBytes (.notice n)) 0 = n.active := by
    simp only [payloadBytes, List.append_assoc]
    exact keyAt_keyBytes ..
  have staging : keyAt (payloadBytes (.notice n)) 8 = n.staging := by
    simp only [payloadBytes, List.append_assoc]
    exact (keyAt_append_right (keyBytes n.active) _ 0).trans (keyAt_keyBytes ..)
  have map : field32 (payloadBytes (.notice n)) 17 = n.map := by
    rw [payloadBytes, List.append_assoc]
    exact (field32_append_right (keyBytes n.active ++ keyBytes n.staging ++ [n.code]) _ 0).trans (field32_bytes32 ..)
  rw [noticeAt, active, staging, map]
  rfl

/-- A frame's payload stands for the command that carries its fields (R72, R82, R212). -/
theorem payloadCommand_payloadBytes (f : Frame) (src : Addr) :
    payloadCommand (frameClass f) src (payloadBytes f) = some (receptionOf src f) := by
  cases f with
  | release k n =>
    have key : keyAt (payloadBytes (.release k n)) 0 = k := keyAt_keyBytes ..
    have count : byteAt (payloadBytes (.release k n)) 8 = n := rfl
    rw [frameClass, payloadCommand, key, count]
    rfl
  | offer k b m =>
    have key : keyAt (payloadBytes (.offer k b m)) 0 = k := by
      rw [payloadBytes, List.append_assoc]
      exact keyAt_keyBytes ..
    have block : byteAt (payloadBytes (.offer k b m)) 8 = BitVec.ofNat 8 b.val := rfl
    rw [frameClass, payloadCommand, key, block, offer_mask, ofNat_val_toFin]
    rfl
  | ask t k b m =>
    have key : keyAt (payloadBytes (.ask t k b m)) 1 = k := by
      simp only [payloadBytes, List.append_assoc]
      exact (keyAt_append_right [t.zeroExtend 8] _ 0).trans (keyAt_keyBytes ..)
    have target : byteAt (payloadBytes (.ask t k b m)) 0 = t.zeroExtend 8 := rfl
    have block : byteAt (payloadBytes (.ask t k b m)) 9 = BitVec.ofNat 8 b.val := rfl
    rw [frameClass, payloadCommand, key, target, block, ask_mask, ofNat_val_toFin]
    rfl
  | segment k b g d =>
    have key : keyAt (payloadBytes (.segment k b g d)) 0 = k := by
      simp only [payloadBytes, List.append_assoc]
      exact keyAt_keyBytes ..
    have block : byteAt (payloadBytes (.segment k b g d)) 8 = BitVec.ofNat 8 b.val := rfl
    have index : byteAt (payloadBytes (.segment k b g d)) 9 = BitVec.ofNat 8 g.val := rfl
    have data : (payloadBytes (.segment k b g d)).drop 10 = d := rfl
    rw [frameClass, payloadCommand, key, block, index, data, ofNat_val_toFin]
    rfl
  | notice n => rw [frameClass, payloadCommand, noticeAt_payloadBytes]; rfl

/-- Settles O13: insertion and its removal cancel, every check of the clean bits passes, and the payload's fields stand at the
offsets of R212. -/
theorem lineFrameReadsBack : Obligations.LineFrameReadsBack := by
  unfold Obligations.LineFrameReadsBack
  intro src own f hs hf
  have legal : f.legal := by cases f <;> exact hf
  have good := receiveBits_frameBits legal hs
  refine ⟨good, Frame.length_payloadBytes legal, ?_⟩
  rw [lineCommand, good]
  simp only [Bool.false_eq_true, if_false, payloadCommand_payloadBytes]
  split <;> rfl

end Sys2Proof.Machine
end

section
/-! SUPPORT. FRAMES: what an operation leaves as it was. `Only ps s t` says that of the parts of the state listed in `Part` none
but those of `ps` may differ; one lemma for each shared operation names the parts it can touch, and a longer operation's list is
composed from those of its steps. -/

namespace Sys2Proof.Machine

/-- The parts of a state that frames speak of. They overlap: an operation that changes `activeSlot` changes `cat` too, and an
operation whose list has `cat` alone keeps the fields of the catalogue that have a name of their own. -/
inductive Part where
  | pending | pins | mem
  | startUp | stage | straps | rebuild
  | flash | jobs | service | spares
  | cat | slots | activeSlot | activeState | stagingState | recorded | appends | work | frozen | target | procedure
  | line | link | queue | counts | timers | echo
  | notice | peers
  | fetch | ctxs | pool | deferral | hold | overrun
  | serve | serveQueue | bufs | served
  | port | answer | events | load
deriving DecidableEq

/-- A part of two states is the same. -/
def Part.same (s t : State) : Part → Prop
  | .pending => t.pending = s.pending
  | .pins => t.pins = s.pins
  | .mem => t.mem = s.mem
  | .startUp => t.startUp = s.startUp
  | .stage => t.startUp.stage = s.startUp.stage
  | .straps => t.startUp.straps = s.startUp.straps
  | .rebuild => t.startUp.rebuild = s.startUp.rebuild
  | .flash => t.flash = s.flash
  | .jobs => (t.flash.recordQ, t.flash.fetchQ, t.flash.serveQ, t.flash.hostQ) =
      (s.flash.recordQ, s.flash.fetchQ, s.flash.serveQ, s.flash.hostQ)
  | .service => t.flash.service = s.flash.service
  | .spares => t.flash.spares = s.flash.spares
  | .cat => t.cat = s.cat
  | .slots => (t.cat.slotA, t.cat.slotB) = (s.cat.slotA, s.cat.slotB)
  | .activeSlot => t.cat.activeSlot = s.cat.activeSlot
  | .activeState => t.cat.activeState = s.cat.activeState
  | .stagingState => t.cat.stagingState = s.cat.stagingState
  | .recorded => t.cat.recorded = s.cat.recorded
  | .appends => (t.cat.commitUnit, t.cat.nextPos, t.cat.highSeq) = (s.cat.commitUnit, s.cat.nextPos, s.cat.highSeq)
  | .work => t.cat.work = s.cat.work
  | .frozen => t.cat.frozen = s.cat.frozen
  | .target => t.cat.target = s.cat.target
  | .procedure => t.cat.procedure = s.cat.procedure
  | .line => t.line = s.line
  | .link => t.line.link = s.line.link
  | .queue => t.line.queue = s.line.queue
  | .counts => (t.line.framesSent, t.line.unechoed, t.line.receiveErrors, t.line.echoMiss) =
      (s.line.framesSent, s.line.unechoed, s.line.receiveErrors, s.line.echoMiss)
  | .timers => (t.line.joinLeft, t.line.listen) = (s.line.joinLeft, s.line.listen)
  | .echo => t.line.echoDriven = s.line.echoDriven
  | .notice => t.notice = s.notice
  | .peers => t.notice.peers = s.notice.peers
  | .fetch => t.fetch = s.fetch
  | .ctxs => t.fetch.ctxs = s.fetch.ctxs
  | .pool => (t.fetch.poolFree, t.fetch.poolInFlight) = (s.fetch.poolFree, s.fetch.poolInFlight)
  | .deferral => t.fetch.deferral = s.fetch.deferral
  | .hold => t.fetch.hold = s.fetch.hold
  | .overrun => t.fetch.overrun = s.fetch.overrun
  | .serve => t.serve = s.serve
  | .serveQueue => t.serve.queue = s.serve.queue
  | .bufs => (t.serve.ob0, t.serve.ob1) = (s.serve.ob0, s.serve.ob1)
  | .served => (t.serve.served, t.serve.refused) = (s.serve.served, s.serve.refused)
  | .port => t.port = s.port
  | .answer => (t.port.state, t.port.answer, t.port.command) = (s.port.state, s.port.answer, s.port.command)
  | .events => t.port.events = s.port.events
  | .load => t.port.load = s.port.load

/-- No part but those of the list differs. -/
structure Only (ps : List Part) (s t : State) : Prop where
  same : ∀ p, p ∉ ps → p.same s t

variable {a s t u : State} {ps qs rs : List Part}

theorem Part.same_refl (p : Part) (s : State) : p.same s s := by cases p <;> exact Eq.refl _

theorem Part.same_trans {p : Part} (h : p.same s t) (k : p.same t u) : p.same s u := by cases p <;> exact Eq.trans k h

theorem Only.refl (ps : List Part) (s : State) : Only ps s s := ⟨fun p _ => p.same_refl s⟩

theorem Only.trans (h : Only ps s t) (k : Only ps t u) : Only ps s u :=
  ⟨fun p hp => Part.same_trans (h.same p hp) (k.same p hp)⟩

theorem Only.mono (h : Only qs s t) (sub : qs.all ps.elem = true) : Only ps s t :=
  ⟨fun p hp => h.same p fun hq => hp (List.mem_of_elem_eq_true (List.all_eq_true.mp sub p hq))⟩

/-- A run that touches the parts of `ps` goes on with a step that touches some of them. -/
theorem Only.andThen (h : Only ps a s) (k : Only qs s t) (sub : qs.all ps.elem = true) : Only ps a t :=
  h.trans (k.mono sub)

/-- A step and the next, each touching some of the parts of `ps`. -/
theorem Only.next (h : Only rs a s) (k : Only qs s t) (first : rs.all ps.elem = true) (sub : qs.all ps.elem = true) :
    Only ps a t := (h.mono first).andThen k sub

/-- What a part off the list keeps. -/
theorem Only.keep (h : Only ps s t) (p : Part) (off : ps.elem p = false) : p.same s t :=
  h.same p fun hp => Bool.noConfusion (off.symm.trans (List.elem_eq_true_of_mem hp))

/-! What a part off the list keeps, by name. -/

theorem Only.link (h : Only ps s t) (off : ps.elem .link = false) : t.line.link = s.line.link := h.keep .link off

theorem Only.queue (h : Only ps s t) (off : ps.elem .queue = false) : t.line.queue = s.line.queue := h.keep .queue off

theorem Only.events (h : Only ps s t) (off : ps.elem .events = false) : t.port.events = s.port.events := h.keep .events off

theorem Only.service (h : Only ps s t) (off : ps.elem .service = false) : t.flash.service = s.flash.service := h.keep .service off

theorem Only.spares (h : Only ps s t) (off : ps.elem .spares = false) : t.flash.spares = s.flash.spares := h.keep .spares off

theorem Only.mem (h : Only ps s t) (off : ps.elem .mem = false) : t.mem = s.mem := h.keep .mem off

theorem Only.startUp (h : Only ps s t) (off : ps.elem .startUp = false) : t.startUp = s.startUp := h.keep .startUp off

theorem Only.line (h : Only ps s t) (off : ps.elem .line = false) : t.line = s.line := h.keep .line off

theorem Only.notice (h : Only ps s t) (off : ps.elem .notice = false) : t.notice = s.notice := h.keep .notice off

theorem Only.fetch (h : Only ps s t) (off : ps.elem .fetch = false) : t.fetch = s.fetch := h.keep .fetch off

theorem Only.serve (h : Only ps s t) (off : ps.elem .serve = false) : t.serve = s.serve := h.keep .serve off

theorem Only.port (h : Only ps s t) (off : ps.elem .port = false) : t.port = s.port := h.keep .port off

theorem Only.cat (h : Only ps s t) (off : ps.elem .cat = false) : t.cat = s.cat := h.keep .cat off

theorem Only.flash (h : Only ps s t) (off : ps.elem .flash = false) : t.flash = s.flash := h.keep .flash off

theorem Only.stage (h : Only ps s t) (off : ps.elem .stage = false) : t.startUp.stage = s.startUp.stage := h.keep .stage off

theorem Only.activeSlot (h : Only ps s t) (off : ps.elem .activeSlot = false) : t.cat.activeSlot = s.cat.activeSlot := h.keep .activeSlot off

theorem Only.activeState (h : Only ps s t) (off : ps.elem .activeState = false) : t.cat.activeState = s.cat.activeState := h.keep .activeState off

theorem Only.stagingState (h : Only ps s t) (off : ps.elem .stagingState = false) : t.cat.stagingState = s.cat.stagingState := h.keep .stagingState off

theorem Only.recorded (h : Only ps s t) (off : ps.elem .recorded = false) : t.cat.recorded = s.cat.recorded := h.keep .recorded off

theorem Only.work (h : Only ps s t) (off : ps.elem .work = false) : t.cat.work = s.cat.work := h.keep .work off

theorem Only.frozen (h : Only ps s t) (off : ps.elem .frozen = false) : t.cat.frozen = s.cat.frozen := h.keep .frozen off

theorem Only.target (h : Only ps s t) (off : ps.elem .target = false) : t.cat.target = s.cat.target := h.keep .target off

theorem Only.procedure (h : Only ps s t) (off : ps.elem .procedure = false) : t.cat.procedure = s.cat.procedure := h.keep .procedure off

theorem Only.peers (h : Only ps s t) (off : ps.elem .peers = false) : t.notice.peers = s.notice.peers := h.keep .peers off

theorem Only.deferral (h : Only ps s t) (off : ps.elem .deferral = false) : t.fetch.deferral = s.fetch.deferral := h.keep .deferral off

theorem Only.hold (h : Only ps s t) (off : ps.elem .hold = false) : t.fetch.hold = s.fetch.hold := h.keep .hold off

theorem Only.overrun (h : Only ps s t) (off : ps.elem .overrun = false) : t.fetch.overrun = s.fetch.overrun := h.keep .overrun off

theorem Only.serveQueue (h : Only ps s t) (off : ps.elem .serveQueue = false) : t.serve.queue = s.serve.queue := h.keep .serveQueue off

theorem Only.load (h : Only ps s t) (off : ps.elem .load = false) : t.port.load = s.port.load := h.keep .load off

theorem Only.joinLeft (h : Only ps s t) (off : ps.elem .timers = false) : t.line.joinLeft = s.line.joinLeft :=
  (Prod.mk.inj (h.keep .timers off)).1

theorem Only.listen (h : Only ps s t) (off : ps.elem .timers = false) : t.line.listen = s.line.listen :=
  (Prod.mk.inj (h.keep .timers off)).2

theorem Only.echoDriven (h : Only ps s t) (off : ps.elem .echo = false) : t.line.echoDriven = s.line.echoDriven :=
  h.keep .echo off

theorem Only.receiveErrors (h : Only ps s t) (off : ps.elem .counts = false) :
    t.line.receiveErrors = s.line.receiveErrors := by
  obtain ⟨_, rest⟩ := Prod.mk.inj (h.keep .counts off)
  obtain ⟨_, rest⟩ := Prod.mk.inj rest
  exact (Prod.mk.inj rest).1

theorem Only.echoMiss (h : Only ps s t) (off : ps.elem .counts = false) : t.line.echoMiss = s.line.echoMiss := by
  obtain ⟨_, rest⟩ := Prod.mk.inj (h.keep .counts off)
  obtain ⟨_, rest⟩ := Prod.mk.inj rest
  exact (Prod.mk.inj rest).2

theorem Only.foldl {α : Type} {f : State → α → State} (hf : ∀ (t : State) (x : α), Only ps t (f t x)) (s : State)
    (l : List α) : Only ps s (l.foldl f s) := by
  induction l generalizing s with
  | nil => exact .refl ps s
  | cons x xs ih => exact (hf s x).trans (ih (f s x))

/-- A choice between going on and staying. -/
theorem Only.ite {c : Prop} [Decidable c] {x y : State} (hx : c → Only ps s x) (hy : ¬ c → Only ps s y) :
    Only ps s (if c then x else y) := by
  split
  · exact hx ‹_›
  · exact hy ‹_›

/-! ## Named updates -/

theorem only_queue (q : List TxEntry) (s : State) : Only [.line, .queue] s { s with line := { s.line with queue := q } } := by
  refine ⟨fun p off => ?_⟩
  cases p <;> first | exact Eq.refl _ | contradiction

theorem only_watch (n : NoticeUnit) (s : State) (h : n.peers = s.notice.peers) :
    Only [.notice] s { s with notice := n } := by
  refine ⟨fun p off => ?_⟩
  cases p <;> first | exact Eq.refl _ | exact h | contradiction

theorem setPeers_only (ps : List Peer) (s : State) : Only [.notice, .peers] s (setPeers ps s) := by
  refine ⟨fun p off => ?_⟩
  cases p <;> first | exact Eq.refl _ | contradiction

theorem setServeQueue_only (q : List ServeEntry) (s : State) : Only [.serve, .serveQueue] s (setServeQueue q s) := by
  refine ⟨fun p off => ?_⟩
  cases p <;> first | exact Eq.refl _ | contradiction

theorem setBuf_only (i : OutBufId) (v : OutBuf) (s : State) : Only [.serve, .bufs] s (setBuf i v s) := by
  refine ⟨fun p off => ?_⟩
  cases i <;> cases p <;> first | exact Eq.refl _ | contradiction

theorem setCtx_only (i : Fin 4) (c : Ctx) (s : State) : Only [.fetch, .ctxs] s (setCtx i c s) := by
  refine ⟨fun p off => ?_⟩
  cases p <;> first | exact Eq.refl _ | contradiction

theorem updateCtx_only (i : Fin 4) (f : Ctx → Ctx) (s : State) : Only [.fetch, .ctxs] s (updateCtx i f s) := setCtx_only ..

theorem setSlot_only (x : Slot) (r : SlotRecord) (s : State) : Only [.cat, .slots] s (setSlot x r s) := by
  refine ⟨fun p off => ?_⟩
  cases x <;> cases p <;> first | exact Eq.refl _ | contradiction

theorem blockEvent_only (e : BlockEvent) (b : Block) (s : State) : Only [.cat, .slots] s (blockEvent e b s) := setSlot_only ..

theorem updateStaging_only (f : SlotRecord → SlotRecord) (s : State) : Only [.cat, .slots] s (updateStaging f s) :=
  setSlot_only ..

theorem updateRole_only (r : Role) (f : SlotRecord → SlotRecord) (s : State) : Only [.cat, .slots] s (updateRole r f s) :=
  setSlot_only ..

theorem setStagingState_only (v : StagingState) (s : State) : Only [.cat, .stagingState] s (setStagingState v s) := by
  refine ⟨fun p off => ?_⟩
  cases p <;> first | exact Eq.refl _ | contradiction

theorem setProcedure_only (v : Procedure) (s : State) : Only [.cat, .procedure] s (setProcedure v s) := by
  refine ⟨fun p off => ?_⟩
  cases p <;> first | exact Eq.refl _ | contradiction

theorem setTarget_only (v : Option (Key × Addr)) (s : State) : Only [.cat, .target] s (setTarget v s) := by
  refine ⟨fun p off => ?_⟩
  cases p <;> first | exact Eq.refl _ | contradiction

theorem setRebuild_only (v : Rebuild) (s : State) : Only [.startUp, .rebuild] s (setRebuild v s) := by
  refine ⟨fun p off => ?_⟩
  cases p <;> first | exact Eq.refl _ | contradiction

theorem raise_only (k : EventKind) (d : BitVec 32) (s : State) : Only [.port, .events] s (raise k d s) := by
  refine ⟨fun p off => ?_⟩
  cases p <;> first | exact Eq.refl _ | contradiction

theorem answer_only (r : ResultCode) (p : List Byte) (s : State) : Only [.port, .answer] s (answer r p s) := by
  refine ⟨fun q off => ?_⟩
  cases q <;> first | exact Eq.refl _ | contradiction

theorem setCommand_only (c : Command) (s : State) : Only [.port, .answer] s (setCommand c s) := by
  refine ⟨fun p off => ?_⟩
  cases p <;> first | exact Eq.refl _ | contradiction

theorem setLoad_only (l : LoadRecord) (s : State) : Only [.port, .load] s (setLoad l s) := by
  refine ⟨fun p off => ?_⟩
  cases p <;> first | exact Eq.refl _ | contradiction

theorem setHold_only (v : Bool) (s : State) : Only [.fetch, .hold] s (setHold v s) := by
  refine ⟨fun p off => ?_⟩
  cases p <;> first | exact Eq.refl _ | contradiction

theorem setService_only (v : Service) (s : State) : Only [.flash, .service] s (setService v s) := by
  refine ⟨fun p off => ?_⟩
  cases p <;> first | exact Eq.refl _ | contradiction

theorem orphanService_only (s : State) : Only [.flash, .service] s (orphanService s) := by
  refine ⟨fun p off => ?_⟩
  cases p <;> first | exact Eq.refl _ | contradiction

theorem leaveContent_only (v : Service) (left : Left) (s : State) : Only [.mem] s (leaveContent v left s) := by
  refine ⟨fun p off => ?_⟩
  cases p <;> first | exact Eq.refl _ | contradiction

theorem strapPins_only (x : Straps) (s : State) : Only [.pins] s (strapPins x s) := by
  refine ⟨fun p off => ?_⟩
  cases p <;> first | exact Eq.refl _ | contradiction

theorem frameEnds_only (echo : Bool) (s : State) : Only [.line, .echo] s (frameEnds echo s) := by
  refine ⟨fun p off => ?_⟩
  cases p <;> first | exact Eq.refl _ | contradiction

theorem lineLeft_only (q : List TxEntry) (s : State) : Only [.line, .queue] s (lineLeft q s) := by
  refine ⟨fun p off => ?_⟩
  cases p <;> first | exact Eq.refl _ | contradiction

theorem countReceiveError_only (n : Nat) (e : Bool) (s : State) : Only [.line, .counts, .echo] s (countReceiveError n e s) := by
  refine ⟨fun p off => ?_⟩
  cases p <;> first | exact Eq.refl _ | contradiction

theorem only_pool (free inFlight : Nat) (s : State) :
    Only [.fetch, .pool] s { s with fetch := { s.fetch with poolFree := free, poolInFlight := inFlight } } := by
  refine ⟨fun p off => ?_⟩
  cases p <;> first | exact Eq.refl _ | contradiction

theorem only_poolFree (free : Nat) (s : State) : Only [.fetch, .pool] s { s with fetch := { s.fetch with poolFree := free } } :=
  only_pool free s.fetch.poolInFlight s

theorem only_deferral (ds : List Deferral) (s : State) :
    Only [.fetch, .deferral] s { s with fetch := { s.fetch with deferral := ds } } := by
  refine ⟨fun p off => ?_⟩
  cases p <;> first | exact Eq.refl _ | contradiction

theorem only_overrun (n : Nat) (s : State) : Only [.fetch, .overrun] s { s with fetch := { s.fetch with overrun := n } } := by
  refine ⟨fun p off => ?_⟩
  cases p <;> first | exact Eq.refl _ | contradiction

theorem only_served (n m : Nat) (s : State) :
    Only [.serve, .served] s { s with serve := { s.serve with served := n, refused := m } } := by
  refine ⟨fun p off => ?_⟩
  cases p <;> first | exact Eq.refl _ | contradiction

theorem only_work (js : List Job) (s : State) : Only [.cat, .work] s { s with cat := { s.cat with work := js } } := by
  refine ⟨fun p off => ?_⟩
  cases p <;> first | exact Eq.refl _ | contradiction

theorem only_activeState (v : ActiveState) (s : State) :
    Only [.cat, .activeState] s { s with cat := { s.cat with activeState := v } } := by
  refine ⟨fun p off => ?_⟩
  cases p <;> first | exact Eq.refl _ | contradiction

theorem only_repairs (n : Nat) (s : State) : Only [.startUp] s { s with startUp := { s.startUp with repairs := n } } := by
  refine ⟨fun p off => ?_⟩
  cases p <;> first | exact Eq.refl _ | contradiction

theorem only_spares (v : Vector SparePos 8) (s : State) :
    Only [.flash, .spares] s { s with flash := { s.flash with spares := v } } := by
  refine ⟨fun p off => ?_⟩
  cases p <;> first | exact Eq.refl _ | contradiction

/-! ## Sequencer -/

/-- A change of the sequencer's jobs and service, with the spare map as it was. -/
theorem only_sequencer {f : Sequencer} (s : State) (h : f.spares = s.flash.spares) :
    Only [.flash, .jobs, .service] s { s with flash := f } := by
  refine ⟨fun p off => ?_⟩
  cases p <;> first | exact Eq.refl _ | exact h | contradiction

theorem pickServeHost_spares {f g : Sequencer} {j : Job} (h : f.pickServeHost = some (j, g)) : g.spares = f.spares := by
  unfold Sequencer.pickServeHost at h
  split at h
  · cases h
  · cases h; rfl
  · cases h; rfl
  · split at h <;> (cases h; rfl)

theorem pick_spares {f g : Sequencer} {j : Job} (h : f.pick = some (j, g)) : g.spares = f.spares := by
  unfold Sequencer.pick at h
  split at h
  · cases h; rfl
  · split at h
    · exact pickServeHost_spares h
    · split at h
      · cases h; rfl
      · exact pickServeHost_spares h

theorem pickJob_onlyParts (s : State) : Only [.flash, .jobs, .service] s (pickJob s) := by
  unfold pickJob
  split
  · exact only_sequencer s rfl
  · rename_i j f hp
    have kept : f.spares = s.flash.spares := pick_spares hp
    exact only_sequencer s kept

theorem setJobs_spares (f : Sequencer) (q : Queue) (js : List Job) : (f.setJobs q js).spares = f.spares := by
  cases q <;> rfl

theorem setJobs_service (f : Sequencer) (q : Queue) (js : List Job) : (f.setJobs q js).service = f.service := by
  cases q <;> rfl

theorem submit_onlyParts (q : Queue) (j : Job) (s : State) : Only [.flash, .jobs, .service] s (submit q j s) := by
  have queued : Only [.flash, .jobs, .service] s { s with flash := s.flash.setJobs q (s.flash.jobs q ++ [j]) } :=
    only_sequencer s (setJobs_spares ..)
  exact .ite (fun _ => queued.andThen (pickJob_onlyParts _) rfl) fun _ => .ite (fun _ => queued) fun _ => .refl ..

theorem only_jobs (q : Queue) (js : List Job) (s : State) :
    Only [.flash, .jobs] s { s with flash := s.flash.setJobs q js } := by
  refine ⟨fun p off => ?_⟩
  cases q <;> cases p <;> first | exact Eq.refl _ | contradiction

theorem withdrawJobs_only (q : Queue) (p : Job → Bool) (s : State) : Only [.flash, .jobs] s (withdrawJobs q p s) := only_jobs ..

theorem pumpWork_onlyParts (n : Nat) (s : State) : Only [.flash, .jobs, .service, .cat, .work] s (pumpWork n s) := by
  induction n generalizing s with
  | zero => exact .refl ..
  | succ n ih =>
    unfold pumpWork
    split
    · exact .refl ..
    · rename_i j js _
      have moved : Only [.flash, .jobs, .service, .cat, .work] s (submit .record j { s with cat := { s.cat with work := js } }) :=
        (only_work js s).next (submit_onlyParts ..) rfl rfl
      exact .ite (fun _ => moved.trans (ih _)) fun _ => .refl ..

theorem addWork_onlyParts (j : Job) (s : State) : Only [.flash, .jobs, .service, .cat, .work] s (addWork j s) :=
  (only_work _ s).next (pumpWork_onlyParts ..) rfl rfl

theorem endService_onlyParts (s : State) : Only [.flash, .jobs, .service, .cat, .work] s (endService s) :=
  (pickJob_onlyParts s).next (pumpWork_onlyParts ..) rfl rfl

/-! ## Transmit queue and notice unit -/

theorem txSubmit_only (f : Frame) (o : Owner) (s : State) : Only [.line, .queue] s (txSubmit f o s) :=
  .ite (fun _ => only_queue _ s) fun _ => .refl ..

theorem txWithdraw_only (p : TxEntry → Bool) (s : State) : Only [.line, .queue] s (txWithdraw p s) := only_queue _ s

theorem txGiveUp_only (p : TxEntry → Bool) (s : State) : Only [.line, .queue] s (txGiveUp p s) :=
  (txWithdraw_only p s).andThen (only_queue _ _) rfl

theorem submitNotice_only (s : State) : Only [.line, .queue, .notice] s (submitNotice s) := by
  unfold submitNotice
  dsimp only
  split
  · have submitted := txSubmit_only (.notice (noticeContent s)) .noticeUnit s
    exact submitted.next (only_watch _ _ (by rfl)) rfl rfl
  · exact (only_watch _ s (by rfl)).mono rfl
  · exact .refl ..

theorem noticeChanged_only (s : State) : Only [.line, .queue, .notice] s (noticeChanged s) := by
  unfold noticeChanged
  split
  · exact (only_watch _ s (by rfl)).mono rfl
  · exact .ite (fun _ => .ite (fun _ => .refl ..) fun _ => submitNotice_only s) fun _ => (only_watch _ s (by rfl)).mono rfl
  · exact .refl ..

theorem noticeWatch_only (before s : State) : Only [.line, .queue, .notice] s (noticeWatch before s) :=
  .ite (fun _ => .refl ..) fun _ => noticeChanged_only s

theorem submitOwed_only (s : State) : Only [.line, .queue, .notice] s (submitOwed s) :=
  .ite (fun _ => submitNotice_only s) fun _ => .refl ..

theorem submitIfDifferent_only (s : State) : Only [.line, .queue, .notice] s (submitIfDifferent s) :=
  .ite (fun _ => (only_watch _ s (by rfl)).mono rfl) fun _ => submitNotice_only s

theorem touchPeer_only (x : Addr) (s : State) : Only [.notice, .peers] s (touchPeer x s) := setPeers_only ..

theorem updatePeer_only (x : Addr) (f : Peer → Peer) (s : State) : Only [.notice, .peers] s (updatePeer x f s) :=
  setPeers_only ..

theorem addTally_only (x : Addr) (s : State) : Only [.notice, .peers] s (addTally x s) :=
  .ite (fun _ => .refl ..) fun _ => updatePeer_only ..

theorem markAsked_only (x : Addr) (s : State) : Only [.notice, .peers] s (markAsked x s) :=
  .ite (fun _ => .refl ..) fun _ => updatePeer_only ..

/-! ## Serve engine -/

theorem updateEntry_only (k : Key) (b : Block) (f : ServeEntry → ServeEntry) (s : State) :
    Only [.serve, .serveQueue] s (updateEntry k b f s) := setServeQueue_only ..

theorem removeEntry_only (k : Key) (b : Block) (s : State) : Only [.serve, .serveQueue] s (removeEntry k b s) :=
  setServeQueue_only ..

theorem offerNext_only (s : State) : Only [.line, .queue, .serve, .serveQueue] s (offerNext s) := by
  unfold offerNext
  split
  · exact .refl ..
  · exact .ite (fun _ => .refl ..) fun _ => .ite
      (fun _ => (txSubmit_only ..).next (setServeQueue_only ..) rfl rfl) fun _ => .refl ..

theorem reoffer_only (k : Key) (b : Block) (m : Mask) (s : State) :
    Only [.line, .queue, .serve, .serveQueue] s (reoffer k b m s) := by
  have given := (txGiveUp_only (isOfferOf k b) s).mono (ps := [.line, .queue, .serve, .serveQueue]) rfl
  exact .ite (fun _ => (given.andThen (txSubmit_only ..) rfl).andThen (updateEntry_only ..) rfl) fun _ =>
    given.andThen (updateEntry_only ..) rfl

theorem enterOffering_only (k : Key) (b : Block) (s : State) :
    Only [.line, .queue, .serve, .serveQueue] s (enterOffering k b s) :=
  (updateEntry_only ..).next (offerNext_only _) rfl rfl

theorem mergeAsk_only (e : ServeEntry) (m : Mask) (s : State) :
    Only [.line, .queue, .serve, .serveQueue] s (mergeAsk e m s) :=
  .ite (fun _ => (updateEntry_only ..).mono rfl) fun _ => .ite (fun _ => reoffer_only ..) fun _ => (updateEntry_only ..).mono rfl

theorem createEntry_only (k : Key) (b : Block) (m : Mask) (s : State) :
    Only [.line, .queue, .serve, .serveQueue, .served] s (createEntry k b m s) := by
  have queued := (setServeQueue_only (s.serve.queue ++ [newEntry k b m (serveDelay s)]) s).mono
    (ps := [.line, .queue, .serve, .serveQueue, .served]) rfl
  exact .ite (fun _ => (only_served _ _ s).mono rfl) fun _ => .ite (fun _ => queued.andThen (enterOffering_only ..) rfl) fun _ => queued

theorem serveAsk_only (x : Addr) (k : Key) (b : Block) (m : Mask) (s : State) :
    Only [.line, .queue, .serve, .serveQueue, .served] s (serveAsk x k b m s) := by
  unfold serveAsk
  split
  · split
    · exact (mergeAsk_only ..).mono rfl
    · exact createEntry_only ..
  · exact .refl ..

theorem suppress_only (k : Key) (b : Block) (m : Mask) (s : State) :
    Only [.line, .queue, .serve, .serveQueue] s (suppress k b m s) := by
  unfold suppress
  split
  · exact .refl ..
  · have given := (txGiveUp_only (isOfferOf k b) s).mono (ps := [.line, .queue, .serve, .serveQueue]) rfl
    exact .ite (fun _ => .refl ..) fun _ => .ite
      (fun _ => (given.andThen (removeEntry_only ..) rfl).andThen (offerNext_only _) rfl) fun _ => .ite
      (fun _ => .refl ..) fun _ => .ite
      (fun _ => (reoffer_only ..).andThen (offerNext_only _) rfl) fun _ => (updateEntry_only ..).mono rfl

/-- The parts that a cancellation touches. -/
abbrev cancelParts : List Part := [.line, .queue, .serve, .serveQueue, .bufs, .flash, .jobs]

theorem cancelBuffer_only (k : Key) (b : Block) (i : OutBufId) (s : State) : Only cancelParts s (cancelBuffer k b i s) := by
  unfold cancelBuffer
  split
  · exact .ite (fun _ => .ite (fun _ => (withdrawJobs_only ..).next (setBuf_only ..) rfl rfl) fun _ => (setBuf_only ..).mono rfl)
      fun _ => .refl ..
  · exact .ite (fun _ => .ite (fun _ => (txGiveUp_only ..).next (setBuf_only ..) rfl rfl)
      fun _ => (txWithdraw_only ..).next (setBuf_only ..) rfl rfl) fun _ => .refl ..
  · exact .refl ..

theorem cancelEntry_only (k : Key) (b : Block) (s : State) : Only cancelParts s (cancelEntry k b s) :=
  ((((removeEntry_only k b s).next (txGiveUp_only ..) rfl rfl).andThen (cancelBuffer_only ..) rfl).andThen
    (cancelBuffer_only ..) rfl).andThen (offerNext_only _) rfl

theorem cancelEntries_only (p : ServeEntry → Bool) (s : State) : Only cancelParts s (cancelEntries p s) := by
  unfold cancelEntries
  refine Only.foldl (fun t e => ?_) s _
  exact cancelEntry_only e.key e.block t

theorem cancelKey_only (k : Option Key) (s : State) : Only cancelParts s (cancelKey k s) := by
  cases k with
  | none => exact .refl ..
  | some k => exact cancelEntries_only ..

/-- The parts that the serve engine touches as it fills its buffers. -/
abbrev serveParts : List Part := [.line, .queue, .serve, .serveQueue, .bufs, .flash, .jobs, .service]

theorem fillBuffer_only (s : State) : Only serveParts s (fillBuffer s) := by
  unfold fillBuffer
  dsimp only
  split
  · refine .ite (fun _ => ?_) fun _ => .refl ..
    split
    · exact .ite (fun _ => ((setBuf_only ..).next (updateEntry_only ..) rfl rfl).andThen (submit_onlyParts ..) rfl)
        fun _ => (cancelEntry_only ..).mono rfl
    · exact (cancelEntry_only ..).mono rfl
  · exact .refl ..

theorem endServe_only (s : State) : Only [.line, .queue, .serve, .serveQueue] s (endServe s) := by
  unfold endServe
  split
  · exact .refl ..
  · exact .ite (fun _ => (removeEntry_only ..).next (offerNext_only _) rfl rfl) fun _ => .refl ..

theorem serveAdvance_only (s : State) : Only serveParts s (serveAdvance s) :=
  ((fillBuffer_only s).andThen (fillBuffer_only _) rfl).andThen (endServe_only _) rfl

theorem startSending_only (k : Key) (b : Block) (s : State) : Only serveParts s (startSending k b s) :=
  (updateEntry_only ..).next (serveAdvance_only _) rfl rfl

theorem offerReport_only (sent : Bool) (k : Key) (b : Block) (s : State) : Only serveParts s (offerReport sent k b s) :=
  .ite (fun _ => startSending_only ..) fun _ => (removeEntry_only ..).next (offerNext_only _) rfl rfl

theorem segmentReport_only (sent : Bool) (i : OutBufId) (s : State) :
    Only (.served :: serveParts) s (segmentReport sent i s) := by
  have freed := (setBuf_only i .free s).mono (ps := .served :: serveParts) rfl
  unfold segmentReport
  extract_lets t
  have counted : Only (.served :: serveParts) s
      (if sent then { t with serve := { t.serve with served := count16 t.serve.served } } else t) :=
    .ite (fun _ => freed.andThen (only_served _ _ t) rfl) fun _ => freed
  exact counted.andThen (serveAdvance_only _) rfl

theorem readResult_only (i : OutBufId) (d : Option (List Byte)) (s : State) : Only serveParts s (readResult i d s) := by
  unfold readResult
  split
  · exact .ite (fun _ => (txSubmit_only ..).next (setBuf_only ..) rfl rfl) fun _ =>
      (setBuf_only ..).next (serveAdvance_only _) rfl rfl
  · exact (setBuf_only ..).next (serveAdvance_only _) rfl rfl
  · exact .refl ..

/-! ## Fetch engine -/

/-- The parts that an ASK touches. -/
abbrev askParts : List Part := [.line, .queue, .fetch, .ctxs]

theorem submitAsk_only (i : Fin 4) (s : State) : Only askParts s (submitAsk i s) :=
  .ite (fun _ => (txSubmit_only ..).next (setCtx_only ..) rfl rfl) fun _ => (setCtx_only ..).mono rfl

theorem submitHeld_only (s : State) : Only askParts s (submitHeld s) :=
  .foldl (fun _ _ => .ite (fun _ => submitAsk_only ..) fun _ => .refl ..) s _

theorem holdAsk_only (i : Fin 4) (s : State) : Only askParts s (holdAsk i s) := by
  have withdrawn := (txWithdraw_only (isAskOf i) s).mono (ps := askParts) rfl
  exact .ite (fun _ => .ite (fun _ => withdrawn) fun _ => withdrawn.andThen (updateCtx_only ..) rfl) fun _ => .refl ..

theorem closeGate_only (s : State) : Only askParts s (closeGate s) := .foldl (fun t i => holdAsk_only i t) s _

theorem hearOffer_only (src : Addr) (k : Key) (b : Block) (m : Mask) (i : Fin 4) (s : State) :
    Only askParts s (hearOffer src k b m i s) :=
  .ite (fun _ => .ite (fun _ => (setCtx_only ..).mono rfl) fun _ => .ite
      (fun _ => (txGiveUp_only ..).next (setCtx_only ..) rfl rfl) fun _ => (setCtx_only ..).mono rfl) fun _ => .ite
    (fun _ => (setCtx_only ..).mono rfl) fun _ => .refl ..

theorem askSent_only (i : Fin 4) (s : State) : Only [.fetch, .ctxs] s (askSent i s) :=
  .ite (fun _ => updateCtx_only ..) fun _ => .refl ..

theorem askCleared_only (i : Fin 4) (s : State) : Only [.fetch, .ctxs] s (askCleared i s) := updateCtx_only ..

/-- The parts that the release of a context touches. -/
abbrev releaseParts : List Part := [.line, .queue, .fetch, .ctxs, .pool, .flash, .jobs, .service]

theorem releaseCtx_only (i : Fin 4) (s : State) : Only releaseParts s (releaseCtx i s) := by
  unfold releaseCtx
  extract_lets c taken held t u
  have orphaned : Only releaseParts s (if taken then orphanService s else s) :=
    .ite (fun _ => (orphanService_only s).mono rfl) fun _ => .refl ..
  have withdrawn : Only releaseParts s t := (orphaned.andThen (withdrawJobs_only ..) rfl).andThen (txGiveUp_only ..) rfl
  have cleared : Only releaseParts s u := withdrawn.andThen (setCtx_only ..) rfl
  exact cleared.andThen (only_pool _ _ u) rfl

/-- The parts that the deferral of a block touches. -/
abbrev deferParts : List Part := [.cat, .slots, .port, .events, .deferral] ++ releaseParts

theorem deferBlock_only (i : Fin 4) (s : State) : Only deferParts s (deferBlock i s) :=
  (((blockEvent_only ..).next (releaseCtx_only ..) rfl rfl).andThen (only_deferral _ _) rfl).andThen (raise_only ..) rfl

theorem enterAsking_only (i : Fin 4) (s : State) : Only deferParts s (enterAsking i s) :=
  .ite (fun _ => deferBlock_only ..) fun _ => .ite (fun _ => (setCtx_only ..).next (submitAsk_only ..) rfl rfl)
    fun _ => (setCtx_only ..).mono rfl

/-- Before the fifth try an entry to ASKING touches its context and the transmit queue (R110). -/
theorem enterAsking_onlyAsks {i : Fin 4} (h : (ctxOf s i).tries < 5) : Only askParts s (enterAsking i s) :=
  .ite (fun full => absurd h (Nat.not_lt.mpr full)) fun _ => .ite
    (fun _ => (setCtx_only ..).next (submitAsk_only ..) rfl rfl) fun _ => (setCtx_only ..).mono rfl

/-- The parts that the opening of contexts touches. -/
abbrev openParts : List Part := [.line, .queue, .fetch, .ctxs, .cat, .slots, .flash, .jobs, .service]

theorem submitErase_only (i : Fin 4) (b : Block) (s : State) :
    Only [.cat, .slots, .flash, .jobs, .service] s (submitErase i b s) :=
  (blockEvent_only ..).next (submit_onlyParts ..) rfl rfl

theorem openOn_only (i : Fin 4) (b : Block) (s : State) : Only openParts s (openOn i b s) :=
  .ite (fun _ => (setCtx_only ..).next (submitErase_only ..) rfl rfl) fun _ =>
    (setCtx_only ..).next (enterAsking_onlyAsks (by rw [setCtx_get]; exact Nat.succ_pos 4)) rfl rfl

theorem openOne_only (s : State) : Only openParts s (openOne s) := by
  unfold openOne
  split
  · split
    · exact openOn_only ..
    · exact .refl ..
  · exact .refl ..

theorem openContexts_only (s : State) : Only openParts s (openContexts s) :=
  (((openOne_only s).trans (openOne_only _)).trans (openOne_only _)).trans (openOne_only _)

theorem fetchFollow_only (s : State) : Only openParts s (fetchFollow s) :=
  (submitHeld_only s).next (openContexts_only _) rfl rfl

theorem programNext_only (i : Fin 4) (s : State) :
    Only [.fetch, .ctxs, .cat, .slots, .flash, .jobs, .service] s (programNext i s) := by
  unfold programNext
  dsimp only
  split
  · exact .refl ..
  · exact .ite (fun _ => ((setCtx_only ..).next (blockEvent_only ..) rfl rfl).andThen (submit_onlyParts ..) rfl) fun _ => .refl ..

theorem evaluate_only (i : Fin 4) (s : State) : Only deferParts s (evaluate i s) :=
  .ite (fun _ => .ite (fun _ => ((setCtx_only ..).next (blockEvent_only ..) rfl rfl).andThen (submit_onlyParts ..) rfl)
    fun _ => enterAsking_only ..) fun _ => .refl ..

theorem serveEnded_only (i : Fin 4) (s : State) : Only deferParts s (serveEnded i s) :=
  (updateCtx_only ..).next (evaluate_only ..) rfl rfl

theorem joinServe_only (src : Addr) (k : Key) (b : Block) (m : Mask) (s : State) : Only openParts s (joinServe src k b m s) := by
  unfold joinServe
  split
  · exact .refl ..
  · exact .ite (fun _ => .ite (fun _ => (setCtx_only ..).next (submitErase_only ..) rfl rfl) fun _ => (setCtx_only ..).mono rfl)
      fun _ => .refl ..

theorem fetchOffer_only (src : Addr) (k : Key) (b : Block) (m : Mask) (s : State) : Only openParts s (fetchOffer src k b m s) := by
  have heard : Only openParts s (ctxIds.foldl (fun t i => hearOffer src k b m i t) s) :=
    .foldl (fun t i => (hearOffer_only src k b m i t).mono rfl) s _
  exact (heard.andThen (joinServe_only ..) rfl).andThen (fetchFollow_only _) rfl

theorem takeSegment_only (i : Fin 4) (g : Seg) (d : List Byte) (s : State) :
    Only [.fetch, .ctxs, .pool, .overrun, .cat, .slots, .flash, .jobs, .service] s (takeSegment i g d s) :=
  .ite (fun _ => .refl ..) fun _ => .ite (fun _ => .refl ..) fun _ => .ite (fun _ => (only_overrun _ s).mono rfl) fun _ =>
    ((setCtx_only ..).next (only_poolFree _ _) rfl rfl).andThen (programNext_only ..) rfl

theorem freeHead_only (i : Fin 4) (s : State) : Only [.fetch, .ctxs, .pool] s (freeHead i s) :=
  (setCtx_only ..).next (only_poolFree _ _) rfl rfl

theorem freeInFlight_only (s : State) : Only [.fetch, .pool] s (freeInFlight s) := only_pool ..

theorem askUnsent_only (i : Fin 4) (s : State) : Only deferParts s (askUnsent i s) :=
  .ite (fun _ => (updateCtx_only ..).next (enterAsking_only ..) rfl rfl) fun _ => .refl ..

/-- The parts that the end of a context touches. -/
abbrev endCtxParts : List Part := [.pool] ++ openParts

theorem endCtx_only (i : Fin 4) (s : State) : Only endCtxParts s (endCtx i s) :=
  (releaseCtx_only ..).next (fetchFollow_only _) rfl rfl

theorem abandon_only (s : State) : Only (.deferral :: releaseParts) s (abandon s) := by
  have released : Only (.deferral :: releaseParts) s
      (ctxIds.foldl (fun t i => if (ctxOf t i).state = .idle then t else releaseCtx i t) s) :=
    .foldl (fun _ _ => .ite (fun _ => .refl ..) fun _ => (releaseCtx_only ..).mono rfl) s _
  exact released.andThen (only_deferral _ _) rfl

/-! ## Catalogue -/

/-- The parts that the undoing of a LOAD END touches. -/
abbrev undoParts : List Part := [.cat, .slots, .stagingState] ++ cancelParts

theorem loadUndo_only (s : State) : Only undoParts s (loadUndo s) :=
  ((setStagingState_only .loading s).next (cancelKey_only ..) rfl rfl).andThen (updateStaging_only ..) rfl

/-- The parts that the failure of a record procedure touches. -/
abbrev failParts : List Part := [.procedure, .port, .answer] ++ undoParts

theorem procedureFailed_only (s : State) : Only failParts s (procedureFailed s) := by
  have closed := (setProcedure_only .none s).mono (ps := failParts) rfl
  unfold procedureFailed
  extract_lets t
  split
  · exact .refl ..
  · exact closed
  · exact (closed.andThen (setStagingState_only _ t) rfl).andThen (answer_only ..) rfl
  · exact closed.andThen (answer_only ..) rfl
  · exact closed.andThen (answer_only ..) rfl
  · exact (closed.andThen (loadUndo_only t) rfl).andThen (answer_only ..) rfl
  · exact (setProcedure_only _ s).mono rfl

theorem only_frozen (v : Bool) (js : List Job) (n : Nat) (s : State) :
    Only [.cat, .frozen, .work, .startUp] s
      { s with cat := { s.cat with frozen := v, work := js }, startUp := { s.startUp with repairs := n } } := by
  refine ⟨fun p off => ?_⟩
  cases p <;> first | exact Eq.refl _ | contradiction

theorem only_appends (u : CommitUnit) (p q : Nat) (s : State) :
    Only [.cat, .appends] s { s with cat := { s.cat with commitUnit := u, nextPos := p, highSeq := q } } := by
  refine ⟨fun p off => ?_⟩
  cases p <;> first | exact Eq.refl _ | contradiction

/-- The parts that FROZEN touches as it is set. -/
abbrev frozenParts : List Part := [.frozen, .work, .startUp, .fetch, .ctxs] ++ failParts

theorem setFrozen_only (s : State) : Only frozenParts s (setFrozen s) :=
  ((only_frozen true [] 0 s).next (procedureFailed_only _) rfl rfl).andThen (closeGate_only _) rfl

/-- The parts that an append touches as it is added. -/
abbrev appendParts : List Part := [.events, .appends, .service] ++ frozenParts

theorem addAppend_only (r : CommitRecord) (s : State) : Only appendParts s (addAppend r s) := by
  unfold addAppend
  split
  · exact (raise_only ..).next (setFrozen_only _) rfl rfl
  · dsimp only
    split
    · exact (only_appends _ _ _ s).next (addWork_onlyParts ..) rfl rfl
    · exact ((only_appends _ _ _ s).next (addWork_onlyParts ..) rfl rfl).andThen (addWork_onlyParts ..) rfl

theorem dropMarks_only (x : Slot) (s : State) : Only [.cat, .work, .flash, .jobs] s (dropMarks x s) :=
  (only_work _ s).next (withdrawJobs_only ..) rfl rfl

/-- The parts that the judgement of a candidate key touches. -/
abbrev judgeParts : List Part := [.target, .pool, .deferral] ++ appendParts

theorem startReclaim_only (k : Key) (s : State) : Only judgeParts s (startReclaim k s) := by
  unfold startReclaim
  extract_lets old s1 s2 s3 s4 s5 s6
  have h1 : Only judgeParts s s1 :=
    ((setProcedure_only .reclaim s).next (setStagingState_only ..) rfl rfl).andThen (updateStaging_only ..) rfl
  have h2 : Only judgeParts s s2 := h1.andThen (abandon_only s1) rfl
  have h3 : Only judgeParts s s3 := h2.andThen (cancelKey_only old s2) rfl
  have h4 : Only judgeParts s s4 := h3.andThen (updateStaging_only _ s3) rfl
  have h5 : Only judgeParts s s5 := h4.andThen (dropMarks_only _ s4) rfl
  have h6 : Only judgeParts s s6 := h5.andThen (addWork_onlyParts _ s5) rfl
  exact h6.andThen (addAppend_only _ s6) rfl

theorem takeUp_only (k : Key) (src : Addr) (s : State) : Only judgeParts s (takeUp k src s) := by
  unfold takeUp
  extract_lets settled
  refine .ite (fun _ => startReclaim_only k s) fun _ => .ite (fun _ => ?_) fun _ => .refl ..
  split
  · exact (setTarget_only ..).mono rfl
  · exact .ite (fun _ => (setTarget_only ..).mono rfl) fun _ => .refl ..

theorem judge_only (k : Key) (src : Addr) (s : State) : Only judgeParts s (judge k src s) :=
  .ite (fun _ => .refl ..) fun _ => .ite (fun _ => .refl ..) fun _ => .ite (fun _ => (raise_only ..).mono rfl) fun _ =>
    .ite (fun _ => takeUp_only ..) fun _ => .refl ..

theorem judgeTarget_only (s : State) : Only judgeParts s (judgeTarget s) := by
  unfold judgeTarget
  split
  · exact .refl ..
  · exact .ite (fun _ => .refl ..) fun _ => (setTarget_only ..).next (judge_only ..) rfl rfl

/-! ## Link -/

theorem setLink_only (l : LinkState) (s : State) : Only [.line, .link, .port, .events] s (setLink l s) := by
  refine ⟨fun p off => ?_⟩
  cases p <;> first | exact Eq.refl _ | contradiction

theorem only_timers (left : Option Nat) (v : ListenTimer) (s : State) :
    Only [.line, .timers] s { s with line := { s.line with joinLeft := left, listen := v } } := by
  refine ⟨fun p off => ?_⟩
  cases p <;> first | exact Eq.refl _ | contradiction

theorem publishReport_only (c : Byte) (s : State) : Only [.port, .answer] s (publishReport c s) :=
  .ite (fun _ => answer_only ..) fun _ => .refl ..

/-- The parts that a CLEARED report touches. -/
abbrev clearedParts : List Part := [.port, .answer, .fetch, .ctxs, .serve, .bufs]

theorem clearedReport_only (s : State) (e : TxEntry) : Only clearedParts s (clearedReport s e) := by
  unfold clearedReport
  split
  · exact .refl ..
  · exact (publishReport_only ..).mono rfl
  · exact .ite (fun _ => (askCleared_only ..).mono rfl) fun _ => .refl ..
  · exact .refl ..
  · exact (setBuf_only ..).mono rfl

end Sys2Proof.Machine
end

section
/-! SUPPORT. THE HOST PORT: what a transaction changes, how a command frame is judged, and the commands that only report
(R151 to R160, R166, R168 to R174). -/

namespace Sys2Proof.Machine

variable {s t : State}

/-! ## Transactions -/

/-- A state that differs in the host port alone. -/
def PortOnly (s t : State) : Prop := t = { s with port := t.port }

theorem captured_portOnly (s : State) : PortOnly s (captured s) := by
  unfold captured
  split <;> rfl

theorem captured_of_low (h : s.port.hcsLow = true) : captured s = s := if_pos h

@[simp] theorem captured_state (s : State) : (captured s).port.state = s.port.state := by unfold captured; split <;> rfl
@[simp] theorem captured_answer (s : State) : (captured s).port.answer = s.port.answer := by unfold captured; split <;> rfl
@[simp] theorem captured_command (s : State) : (captured s).port.command = s.port.command := by unfold captured; split <;> rfl
@[simp] theorem captured_events (s : State) : (captured s).port.events = s.port.events := by unfold captured; split <;> rfl
@[simp] theorem captured_load (s : State) : (captured s).port.load = s.port.load := by unfold captured; split <;> rfl
@[simp] theorem captured_ident (s : State) : (captured s).port.identSubmitted = s.port.identSubmitted := by
  unfold captured; split <;> rfl

theorem endTransaction_portOnly (n : Nat) (f : List Byte) (s : State) : PortOnly s (endTransaction n f s) := by
  have kept : captured s = { s with port := (captured s).port } := captured_portOnly s
  unfold endTransaction
  rw [kept]
  rfl

@[simp] theorem endTransaction_state (n : Nat) (f : List Byte) (s : State) :
    (endTransaction n f s).port.state = s.port.state := captured_state s
@[simp] theorem endTransaction_answer (n : Nat) (f : List Byte) (s : State) :
    (endTransaction n f s).port.answer = s.port.answer := captured_answer s
@[simp] theorem endTransaction_command (n : Nat) (f : List Byte) (s : State) :
    (endTransaction n f s).port.command = s.port.command := captured_command s
@[simp] theorem endTransaction_events (n : Nat) (f : List Byte) (s : State) :
    (endTransaction n f s).port.events = s.port.events := captured_events s
@[simp] theorem endTransaction_load (n : Nat) (f : List Byte) (s : State) :
    (endTransaction n f s).port.load = s.port.load := captured_load s
@[simp] theorem endTransaction_ident (n : Nat) (f : List Byte) (s : State) :
    (endTransaction n f s).port.identSubmitted = s.port.identSubmitted := captured_ident s

theorem PortOnly.startUp (h : PortOnly s t) : t.startUp = s.startUp := by rw [show t = _ from h]
theorem PortOnly.flash (h : PortOnly s t) : t.flash = s.flash := by rw [show t = _ from h]

theorem PortOnly.content (h : PortOnly s t) : noticeContent s = noticeContent t := by
  rw [show t = _ from h]
  rfl

/-- The end of an event that changes the port alone adds nothing to it. -/
theorem settle_portOnly (hp : NotProtected s) (h : PortOnly s t) : settle s t = t :=
  settle_eq (fun v hv => hp v (h.flash ▸ hv)) h.content

/-! ## Command frames -/

theorem frameClocked_portOnly (p : Params) (s : State) : PortOnly s (frameClocked p s) := endTransaction_portOnly ..

theorem frameTaken_portOnly (p : Params) (s : State) : PortOnly s (frameTaken p s) := by
  have kept : frameClocked p s = { s with port := (frameClocked p s).port } := frameClocked_portOnly p s
  unfold frameTaken
  rw [kept]
  rfl

/-- An answer to a frame changes the port alone. -/
theorem answered_frameTaken_portOnly (r : ResultCode) (payload : List Byte) (p : Params) (s : State) :
    PortOnly s (answer r payload (frameTaken p s)) := by
  have kept : frameTaken p s = { s with port := (frameTaken p s).port } := frameTaken_portOnly p s
  unfold answer
  rw [kept]
  rfl

@[simp] theorem frameTaken_startUp (p : Params) (s : State) : (frameTaken p s).startUp = s.startUp :=
  (frameTaken_portOnly p s).startUp

theorem frameTaken_eq (p : Params) (s : State) : frameTaken p s = { s with port := (frameTaken p s).port } :=
  frameTaken_portOnly p s

@[simp] theorem running_frameTaken (p : Params) (s : State) : running (frameTaken p s) = running s := by
  unfold running
  rw [frameTaken_startUp]

@[simp] theorem frameTaken_state (p : Params) (s : State) : (frameTaken p s).port.state = .taken := rfl
@[simp] theorem frameTaken_answer (p : Params) (s : State) : (frameTaken p s).port.answer = none := rfl
@[simp] theorem frameTaken_command (p : Params) (s : State) : (frameTaken p s).port.command = none := rfl
@[simp] theorem frameTaken_events (p : Params) (s : State) : (frameTaken p s).port.events = s.port.events :=
  endTransaction_events (3 + p.bytes.length + p.extra) [] s
@[simp] theorem frameTaken_load (p : Params) (s : State) : (frameTaken p s).port.load = s.port.load :=
  endTransaction_load (3 + p.bytes.length + p.extra) [] s
@[simp] theorem frameTaken_ident (p : Params) (s : State) :
    (frameTaken p s).port.identSubmitted = s.port.identSubmitted := endTransaction_ident (3 + p.bytes.length + p.extra) [] s

variable {c : HostCommand} {p : Params} {body : State → State}

/-- In TAKEN a command frame is ignored (R155). -/
theorem hostCommand_ignored (opened : portClosed s = false) (taken : s.port.state = .taken) :
    hostCommand c p body s = frameClocked p s := by
  unfold hostCommand
  rw [if_neg (by simp [opened]), if_pos (by simpa using taken)]
  rfl

/-- Outside TAKEN a frame without fault is taken (R155). -/
theorem hostCommand_taken (ready : PortReady s) (short : p.bytes.length ≤ 140) :
    hostCommand c p body s = takeFrame c p.bytes body (frameClocked p s) := by
  obtain ⟨opened, idle⟩ := ready
  unfold hostCommand
  rw [if_neg (by simp [opened]), if_neg (by simpa using idle), if_neg (Nat.not_lt.mpr short)]
  rfl

theorem hostCommand_notReady (ready : PortReady s) (short : p.bytes.length ≤ 140) (rebuilding : running s = false)
    (waits : takenInRebuild c = false) : hostCommand c p body s = answer .notReady [] (frameTaken p s) := by
  rw [hostCommand_taken ready short]
  exact if_pos (by rw [← frameTaken, running_frameTaken, rebuilding, waits]; rfl)

/-- A command that the phase lets the port take is judged by its length (R158, R166). -/
theorem hostCommand_judged (ready : PortReady s) (short : p.bytes.length ≤ 140)
    (phase : running s = true ∨ takenInRebuild c = true) :
    hostCommand c p body s =
      if p.bytes.length ≠ paramLength c then answer .badParam [] (frameTaken p s) else body (frameTaken p s) := by
  rw [hostCommand_taken ready short]
  refine if_neg ?_
  rw [← frameTaken, running_frameTaken]
  obtain run | early := phase
  · simp [run]
  · simp [early]

theorem hostCommand_badParam (ready : PortReady s) (short : p.bytes.length ≤ 140)
    (phase : running s = true ∨ takenInRebuild c = true) (wrong : p.bytes.length ≠ paramLength c) :
    hostCommand c p body s = answer .badParam [] (frameTaken p s) := by
  rw [hostCommand_judged ready short phase, if_pos wrong]

theorem paramLength_le (c : HostCommand) : paramLength c ≤ 140 := by cases c <;> decide

/-- A command of the right length that the phase lets the port take is carried out (R158, R166). -/
theorem hostCommand_carriedOut (ready : PortReady s) (phase : running s = true ∨ takenInRebuild c = true)
    (right : p.bytes.length = paramLength c) : hostCommand c p body s = body (frameTaken p s) := by
  rw [hostCommand_judged ready (right ▸ paramLength_le c) phase, if_neg (not_not_intro right)]

/-! ## Commands judged -/

/-- What an instruction that stands for a command frame does: the frame is judged and its command carried out, and its event
ends. -/
def JudgedAs (c : HostCommand) (i : Params → Instr) : Prop :=
  ∀ (p : Params) (s : State), ∃ body, exec (i p) s = .next (hostCommand c p body s) ∨
    exec (i p) s = .next (settle s (hostCommand c p body s))

variable {i : Params → Instr}

/-- Where the judgement leaves a change of the port alone, that is the whole event. -/
theorem JudgedAs.exec (h : JudgedAs c i) (hp : NotProtected s)
    (judged : ∀ body, hostCommand c p body s = t) (only : PortOnly s t) : exec (i p) s = .next t := by
  obtain ⟨body, now | settled⟩ := h p s
  · rw [now, judged]
  · rw [settled, judged, settle_portOnly hp only]

theorem JudgedAs.ignored (h : JudgedAs c i) (hp : NotProtected s) (opened : portClosed s = false)
    (taken : s.port.state = .taken) : Machine.exec (i p) s = .next (frameClocked p s) :=
  h.exec hp (fun _ => hostCommand_ignored opened taken) (frameClocked_portOnly p s)

theorem JudgedAs.badParam (h : JudgedAs c i) (hp : NotProtected s) (ready : PortReady s) (short : p.bytes.length ≤ 140)
    (phase : running s = true ∨ takenInRebuild c = true) (wrong : p.bytes.length ≠ paramLength c) :
    Machine.exec (i p) s = .next (answer .badParam [] (frameTaken p s)) :=
  h.exec hp (fun _ => hostCommand_badParam ready short phase wrong) (answered_frameTaken_portOnly ..)

/-- A command that is taken only in RUNNING, in the three cases of R155, R158 and R166. -/
theorem JudgedAs.inRunning (h : JudgedAs c i) (waits : takenInRebuild c = false) (hp : NotProtected s)
    (opened : portClosed s = false) (short : p.bytes.length ≤ 140) :
    (s.port.state ≠ .taken → running s = false → Machine.exec (i p) s = .next (answer .notReady [] (frameTaken p s))) ∧
    (s.port.state ≠ .taken → running s = true → p.bytes.length ≠ paramLength c →
      Machine.exec (i p) s = .next (answer .badParam [] (frameTaken p s))) ∧
    (s.port.state = .taken → Machine.exec (i p) s = .next (frameClocked p s)) :=
  ⟨fun idle rebuilding => h.exec hp (fun _ => hostCommand_notReady ⟨opened, idle⟩ short rebuilding waits)
      (answered_frameTaken_portOnly ..),
    fun idle run => h.badParam hp ⟨opened, idle⟩ short (.inl run), h.ignored hp opened⟩

/-- A command that is taken in the rebuild too, in the cases of R155 and R166. -/
theorem JudgedAs.always (h : JudgedAs c i) (early : takenInRebuild c = true) (hp : NotProtected s)
    (opened : portClosed s = false) (short : p.bytes.length ≤ 140) :
    (s.port.state ≠ .taken → p.bytes.length ≠ paramLength c →
      Machine.exec (i p) s = .next (answer .badParam [] (frameTaken p s))) ∧
    (s.port.state = .taken → Machine.exec (i p) s = .next (frameClocked p s)) :=
  ⟨fun idle => h.badParam hp ⟨opened, idle⟩ short (.inr early), h.ignored hp opened⟩

theorem judged_restart (pins : Straps) (left : Left) (hp : NotProtected s) (free : wouldRestart p.bytes s = false)
    (judged : hostCommand .restart p (restartBody pins left) s = t) (only : PortOnly s t) :
    exec (.restart p pins left) s = .next t := by
  change execRestart p pins left s = _
  unfold execRestart conclude
  rw [if_neg (by simp [free]), judged, settle_portOnly hp only]

/-- Settles O51, by the judgement of a frame, once for the commands of RUNNING, once for ID, STAT and EVENT, and for RESTART. -/
theorem commandsJudged : Obligations.CommandsJudged := by
  unfold Obligations.CommandsJudged
  intro s p opened short hp
  have now {c : HostCommand} {i : Params → Instr} {body : Params → State → State}
      (h : ∀ p s, exec (i p) s = .next (hostCommand c p (body p) s)) : JudgedAs c i := fun p s => ⟨body p, .inl (h p s)⟩
  have settled {c : HostCommand} {i : Params → Instr} {body : Params → State → State}
      (h : ∀ p s, exec (i p) s = .next (settle s (hostCommand c p (body p) s))) : JudgedAs c i :=
    fun p s => ⟨body p, .inr (h p s)⟩
  have run {c : HostCommand} {i : Params → Instr} (waits : takenInRebuild c = false) (h : JudgedAs c i) :=
    h.inRunning waits hp opened short
  have early {c : HostCommand} {i : Params → Instr} (early : takenInRebuild c = true) (h : JudgedAs c i) :=
    h.always early hp opened short
  refine ⟨?_, ?_, fun pins left => ⟨fun idle rebuilding => ?_, fun idle running wrong => ?_, fun taken => ?_⟩⟩
  · simp only [List.forall_mem_cons]
    exact ⟨run (c := .ident) rfl (now fun _ _ => rfl), run (c := .slots) rfl (now (body := fun _ => slotsBody) fun _ _ => rfl),
      run (c := .blocks) rfl (now fun _ _ => rfl), run (c := .peers) rfl (now fun _ _ => rfl),
      run (c := .read) rfl (now fun _ _ => rfl), run (c := .checksum) rfl (now fun _ _ => rfl),
      run (c := .accept) rfl (settled fun _ _ => rfl), run (c := .floor) rfl (settled fun _ _ => rfl),
      run (c := .loadBegin) rfl (settled fun _ _ => rfl), run (c := .loadData) rfl (settled fun _ _ => rfl),
      run (c := .loadEnd) rfl (settled fun _ _ => rfl), run (c := .loadAbort) rfl (settled fun _ _ => rfl),
      run (c := .publish) rfl (settled fun _ _ => rfl), run (c := .hold) rfl (now fun _ _ => rfl),
      run (c := .resume) rfl (now fun _ _ => rfl), run (c := .wipe) rfl (settled fun _ _ => rfl), nofun⟩
  · simp only [List.forall_mem_cons]
    exact ⟨early (c := .idReport) rfl (now fun _ _ => rfl), early (c := .stat) rfl (now fun _ _ => rfl),
      early (c := .event) rfl (now fun _ _ => rfl), nofun⟩
  · exact judged_restart pins left hp (by simp [wouldRestart, rebuilding])
      (hostCommand_notReady ⟨opened, idle⟩ short rebuilding rfl) (answered_frameTaken_portOnly ..)
  · exact judged_restart pins left hp (by simp [wouldRestart, wrong])
      (hostCommand_badParam ⟨opened, idle⟩ short (.inl running) (mt List.length_eq_zero_iff.mp wrong)) (answered_frameTaken_portOnly ..)
  · exact judged_restart pins left hp (by simp [wouldRestart, taken]) (hostCommand_ignored opened taken)
      (frameClocked_portOnly p s)

/-! ## Faulty frames -/

theorem endTransaction_eq (n : Nat) (f : List Byte) (s : State) :
    endTransaction n f s = { s with port := (endTransaction n f s).port } := endTransaction_portOnly n f s

theorem answered_endTransaction_portOnly (r : ResultCode) (payload : List Byte) (n : Nat) (f : List Byte) (s : State) :
    PortOnly s (answer r payload (endTransaction n f s)) := by
  have kept := endTransaction_eq n f s
  unfold answer
  rw [kept]
  rfl

/-- A faulty frame is answered outside TAKEN and ignored in it (R155, R156). -/
theorem exec_badFrame {bytes : List Byte} {f : FrameFault} (opened : portClosed s = false) (nonempty : bytes ≠ [])
    (command : bytes.head? ≠ some 0xF0) (faulty : frameFault bytes = some f) :
    exec (.badFrame bytes) s = .next (if s.port.state = .taken then endTransaction bytes.length [] s
      else answer .badFrame [faultCode f] (endTransaction bytes.length [] s)) := by
  change execBadFrame bytes s = _
  unfold execBadFrame proceed
  simp only [opened, Bool.false_eq_true, if_false, nonempty, command, faulty, endTransaction_state]

theorem exec_frameIgnored {bytes : List Byte} (opened : portClosed s = false) (command : bytes.head? ≠ some 0xF0)
    (taken : s.port.state = .taken) : exec (.frameIgnored bytes) s = .next (endTransaction bytes.length [] s) := by
  change execFrameIgnored bytes s = _
  unfold execFrameIgnored proceed
  rw [if_neg (by simp [opened]), if_pos (by simpa using ⟨taken, command⟩)]

/-- Settles O50, by the fault of the frame and the port state at its end. -/
theorem faultyFramesAnswered : Obligations.FaultyFramesAnswered := by
  unfold Obligations.FaultyFramesAnswered
  intro s bytes opened nonempty command
  refine ⟨fun f faulty idle => ?_, fun c hc taken => ?_⟩
  · refine ⟨answer .badFrame [faultCode f] (endTransaction bytes.length [] s), ?_, answered_endTransaction_portOnly ..,
      ⟨rfl, rfl, rfl⟩, endTransaction_events bytes.length [] s, endTransaction_load bytes.length [] s⟩
    rw [exec_badFrame opened nonempty command faulty, if_neg idle]
  · have ignored : exec c s = .next (endTransaction bytes.length [] s) := by
      obtain rfl | ⟨rfl, faulty⟩ := hc
      · exact exec_frameIgnored opened command taken
      · obtain ⟨f, hf⟩ := Option.ne_none_iff_exists'.mp faulty
        rw [exec_badFrame opened nonempty command hf, if_pos taken]
    exact ⟨_, ignored, endTransaction_eq .., (endTransaction_state ..).trans taken, endTransaction_answer ..,
      endTransaction_command .., endTransaction_events .., endTransaction_load ..⟩

/-! ## Answer reads -/

theorem length_answerBytes (a : Answer) : (answerBytes a).length = 4 + a.payload.length := by
  have header : (bytes16 (BitVec.ofNat 16 a.payload.length)).length = 2 := rfl
  simp only [answerBytes, List.length_append, List.length_cons, List.length_nil, header]
  omega

theorem hdoBytes_eq (s : State) (n : Nat) (following : List Byte) :
    hdoBytes s n following = (([portCode s.port.capState, BitVec.ofNat 8 s.port.capEvents] ++ following) ++
      List.replicate n 0xFF).take n := by
  unfold hdoBytes
  generalize [portCode s.port.capState, BitVec.ofNat 8 s.port.capEvents] ++ following = known
  dsimp only
  rw [List.take_append, List.take_replicate, Nat.min_eq_left (Nat.sub_le ..)]

/-- An answer read of an answer that is captured clocks it out, and empties the answer store when it is complete (R160). -/
theorem answerRead_of_answered {a : Answer} {n : Nat} (low : s.port.hcsLow = true) (state : s.port.capState = .answered)
    (stored : s.port.answer = some a) :
    answerRead n s = if 2 + (answerBytes a).length ≤ n then
        { endTransaction n (answerBytes a) s with
          port := { (endTransaction n (answerBytes a) s).port with state := .idle, answer := none } }
      else endTransaction n (answerBytes a) s := by
  unfold answerRead
  rw [captured_of_low low]
  have complete : readComplete s n = decide (2 + (answerBytes a).length ≤ n) := by
    unfold readComplete
    rw [state, stored, length_answerBytes, ← Nat.add_assoc]
  have following : answerFollowing s = answerBytes a := by
    unfold answerFollowing
    rw [state, stored]
  rw [complete, following]
  simp

theorem exec_answerRead {n : Nat} (opened : portClosed s = false) : exec (.answerRead n) s = .next (answerRead n s) := by
  change execAnswerRead n s = _
  unfold execAnswerRead proceed
  rw [if_neg (by simp [opened])]

/-- Settles O49: the edges of HCS# by their definitions, an answer read by whether it is complete. -/
theorem transactionsKeepProtocol : Obligations.TransactionsKeepProtocol := by
  unfold Obligations.TransactionsKeepProtocol
  refine fun s => ⟨fun high out => ?_, fun high held => ?_, fun low closed => ?_, fun n a opened low state stored => ?_⟩
  · change execTransactionBegin s = _
    unfold execTransactionBegin
    rw [if_neg (by simp [high]), if_neg out]
    rfl
  · change execTransactionBegin s = _
    unfold execTransactionBegin
    rw [if_neg (by simp [high]), if_pos held]
    rfl
  · change execHcsHighAfterReset s = _
    unfold execHcsHighAfterReset
    rw [if_neg (by simp [low]), if_pos closed]
    rfl
  · have clocked : (endTransaction n (answerBytes a) s).port.hdo =
        (([0xA2, BitVec.ofNat 8 s.port.capEvents] ++ answerBytes a) ++ List.replicate n 0xFF).take n := by
      unfold endTransaction
      rw [captured_of_low low]
      exact (hdoBytes_eq ..).trans (by rw [state]; rfl)
    refine ⟨_, exec_answerRead opened, ?_⟩
    rw [answerRead_of_answered low state stored]
    have kept := endTransaction_eq n (answerBytes a) s
    have command := endTransaction_command n (answerBytes a) s
    have events := endTransaction_events n (answerBytes a) s
    split
    · exact ⟨by rw [kept], rfl, clocked, ⟨rfl, rfl⟩, command, events⟩
    · exact ⟨kept, rfl, clocked, ⟨endTransaction_state .., (endTransaction_answer ..).trans stored⟩, command, events⟩

/-! ## Reports -/

theorem idPayload_frameTaken (p : Params) (s : State) : idPayload (frameTaken p s) = idPayload s := by
  unfold idPayload
  rw [frameTaken_startUp, frameTaken_ident, running_frameTaken]

theorem statPayload_frameTaken (p : Params) (s : State) : statPayload (frameTaken p s) = statPayload s := by
  rw [frameTaken_eq]
  rfl

theorem length_idPayload (s : State) : (idPayload s).length = 18 := rfl

theorem length_statPayload (s : State) : (statPayload s).length = 20 := rfl

theorem length_slotsPayload (s : State) : (slotsPayload s).length = 51 := rfl

theorem length_blocksPayload (s : State) (role : Role) (first count : Nat) :
    (blocksPayload s role first count).length = 6 + count := by
  unfold blocksPayload
  simp only [List.length_append, List.length_map, List.length_range]
  rfl

/-- EVENT takes its entries from the head of the queue (R164, R174). -/
theorem exec_event {more : Nat} (ready : PortReady s) (n : Byte) (one : 1 ≤ n.toNat) (ten : n.toNat ≤ 10) :
    exec (.event ⟨[n], more⟩) s = .next (answer .ok (BitVec.ofNat 8 (min n.toNat s.port.events.length) ::
        (s.port.events.take n.toNat).flatMap eventBytes)
      { frameTaken ⟨[n], more⟩ s with port := { (frameTaken ⟨[n], more⟩ s).port with
          events := s.port.events.drop n.toNat } }) := by
  change execEvent ⟨[n], more⟩ s = _
  unfold execEvent proceed
  rw [hostCommand_carriedOut ready (.inr rfl) rfl]
  unfold eventBody
  simp only [frameTaken_events, byteAt_zero, List.length_take, one, ten, decide_true, Bool.and_true, if_true]

/-- Settles O52, by the judgement of a frame of the right length and each command's body. -/
theorem reportsAnswer : Obligations.ReportsAnswer := by
  unfold Obligations.ReportsAnswer
  intro s more ready
  refine ⟨fun ended => ⟨?_, length_idPayload s, ?_, length_statPayload s⟩, fun reading => ⟨?_, ?_⟩, fun n one ten => ?_,
    fun run => ⟨?_, length_slotsPayload s, fun p first hi lo role known one fits => ⟨?_, length_blocksPayload ..⟩,
      fun n small => ?_⟩⟩
  · change execIdReport ⟨[], more⟩ s = _
    unfold execIdReport proceed
    rw [hostCommand_carriedOut ready (.inr rfl) rfl, idBody, frameTaken_startUp, if_neg ended, idPayload_frameTaken]
  · change execStat ⟨[], more⟩ s = _
    unfold execStat proceed
    rw [hostCommand_carriedOut ready (.inr rfl) rfl, statBody, frameTaken_startUp, if_neg ended, statPayload_frameTaken]
  · change execIdReport ⟨[], more⟩ s = _
    unfold execIdReport proceed
    rw [hostCommand_carriedOut ready (.inr rfl) rfl, idBody, frameTaken_startUp, if_pos reading]
  · change execStat ⟨[], more⟩ s = _
    unfold execStat proceed
    rw [hostCommand_carriedOut ready (.inr rfl) rfl, statBody, frameTaken_startUp, if_pos reading]
  · refine ⟨_, exec_event ready n one ten, ?_, rfl, rfl, rfl, rfl⟩
    rw [frameTaken_eq]
    rfl
  · change execSlots ⟨[], more⟩ s = _
    unfold execSlots proceed
    rw [hostCommand_carriedOut ready (.inl run) rfl, slotsBody, frameTaken_eq]
    rfl
  · change execBlocks ⟨[p, first, hi, lo], more⟩ s = _
    unfold execBlocks proceed
    rw [hostCommand_carriedOut ready (.inl run) rfl, blocksBody]
    have kind : roleParam (byteAt [p, first, hi, lo] 0) = some role := known
    have range : (1 ≤ (hi ++ lo).toNat && first.toNat + (hi ++ lo).toNat ≤ 256) = true := by simp [one, fits]
    have count : field16 [p, first, hi, lo] 2 = hi ++ lo := rfl
    have start : byteAt [p, first, hi, lo] 1 = first := rfl
    simp only [kind, count, start, range, if_true]
    rw [frameTaken_eq]
    rfl
  · change execPeers ⟨[n], more⟩ s = _
    unfold execPeers proceed
    rw [hostCommand_carriedOut ready (.inl run) rfl, peersBody]
    have index : byteAt [n] 0 = n := rfl
    simp only [index, if_pos small]
    rw [frameTaken_eq]
    rfl

/-! ## Resets -/

theorem cutShort_hcsLow (left : Left) (s : State) : (cutShort left s).port.hcsLow = s.port.hcsLow := by
  unfold cutShort
  split <;> rfl

/-- Settles O59: the state of a device reset is built from the pins, the array as cut short, the level of HCS# and the queue. -/
theorem resetsClearState : Obligations.ResetsClearState := by
  unfold Obligations.ResetsClearState
  intro s pins left legal
  have reset (cause : ResetCause) : exec (.deviceReset cause pins left) s =
      .next (deviceReset (resetPins cause pins s.pins) (cutShort left s)) := if_pos legal
  have stays (p : Pins) : deviceReset p (cutShort left s) =
      { State.afterReset (if p.power && !p.resetLow then .reading else .held) p (cutShort left s).mem s.port.hcsLow with
        pending := s.pending } := by
    unfold deviceReset
    rw [cutShort_hcsLow, cutShort_pending]
  refine ⟨fun low => ?_, ?_, fun powered => ?_, fun held powered => ?_⟩
  · rw [reset, stays]
    cases low <;> rfl
  · rw [reset, stays]
    simp [resetPins]
  · change execPowerLoss left s = _
    unfold execPowerLoss proceed
    rw [if_neg (by simp [powered]), if_pos legal, stays]
    rfl
  · change execStartUpBegins pins s = _
    unfold execStartUpBegins
    rw [if_pos (by simp [held, powered])]
    rfl

end Sys2Proof.Machine
end

section
/-! SUPPORT. TIMERS: what the passage of time leaves, the submission of this station's NOTICE, and the expiry of each timer
(R79, R86, R87, R90 to R93, R97, R110, R114, R123 to R127, R139). -/

namespace Sys2Proof.Machine

variable {s t : State} {n : Nat}

/-! ## The passage of time -/

@[simp] theorem elapse_link (n : Nat) (s : State) : (elapse n s).line.link = s.line.link := rfl
@[simp] theorem elapse_queue (n : Nat) (s : State) : (elapse n s).line.queue = s.line.queue := rfl
@[simp] theorem elapse_last (n : Nat) (s : State) : (elapse n s).notice.last = s.notice.last := rfl
@[simp] theorem elapse_poolFree (n : Nat) (s : State) : (elapse n s).fetch.poolFree = s.fetch.poolFree := rfl
@[simp] theorem elapse_content (n : Nat) (s : State) : noticeContent (elapse n s) = noticeContent s := rfl
@[simp] theorem elapse_gate (n : Nat) (s : State) : gateOpen (elapse n s) = gateOpen s := rfl

@[simp] theorem ctxOf_elapse (n : Nat) (s : State) (i : Fin 4) : ctxOf (elapse n s) i = (ctxOf s i).elapse n := by
  simp [ctxOf, elapse, mapVec]

/-! ## The submission of this station's NOTICE -/

/-- Where the link sends, a NOTICE is accepted unless one is on the line (R77, R79). -/
theorem txAnswer_notice_accepted {f : NoticeFrame} (sends : linkSends s.line.link = true)
    (off : ∀ e ∈ s.line.queue, frameClass e.frame = 4 → e.onLine = false) : txAnswer s.line (.notice f) = .accepted := by
  have none : s.line.queue.any (fun e => frameClass e.frame = 4 && e.onLine) = false := by
    rw [List.any_eq_false]
    intro e he
    by_cases notice : frameClass e.frame = 4
    · simp [off e he notice]
    · simp [notice]
  unfold txAnswer
  rw [if_neg (by simp [sends])]
  split
  · rfl
  · exact if_pos (by rw [none]; rfl)

/-- With a NOTICE on the line the class has no room (R77, R79). -/
theorem txAnswer_notice_full {f : NoticeFrame} (sends : linkSends s.line.link = true)
    (on : ∃ e ∈ s.line.queue, frameClass e.frame = 4 ∧ e.onLine = true) : txAnswer s.line (.notice f) = .full := by
  obtain ⟨e, he, notice, onLine⟩ := on
  have count : 0 < classCount s.line.queue 4 := List.length_pos_of_mem (List.mem_filter.mpr ⟨he, by simpa using notice⟩)
  have any : s.line.queue.any (fun e => frameClass e.frame = 4 && e.onLine) = true :=
    List.any_eq_true.mpr ⟨e, he, by simp [notice, onLine]⟩
  unfold txAnswer
  have full : ¬ classCount s.line.queue (frameClass (.notice f)) < reservation (frameClass (.notice f)) := Nat.not_lt.mpr count
  rw [if_neg (by simp [sends]), if_neg full, if_neg (by rw [any]; simp)]

theorem submitNotice_accepted (accepted : txAnswer s.line (.notice (noticeContent s)) = .accepted) :
    submitNotice s = { s with
      line := { s.line with queue := withNotice s }
      notice := { s.notice with
        spacing := some 0
        periodicLeft := if s.line.link = .active then some 2000 else s.notice.periodicLeft
        changed := false
        owed := false
        last := some (noticeContent s) } } := by
  unfold submitNotice txSubmit
  simp only [accepted, if_true]
  rfl

theorem submitNotice_full (full : txAnswer s.line (.notice (noticeContent s)) = .full) :
    submitNotice s = { s with notice := { s.notice with owed := true } } := by
  unfold submitNotice
  simp only [full]

theorem submitNotice_noLink (noLink : txAnswer s.line (.notice (noticeContent s)) = .noLink) : submitNotice s = s := by
  unfold submitNotice
  simp only [noLink]

theorem noticeSent_submitNotice (sends : linkSends s.line.link = true)
    (off : ∀ e ∈ s.line.queue, frameClass e.frame = 4 → e.onLine = false) : NoticeSent s (submitNotice s) := by
  rw [submitNotice_accepted (txAnswer_notice_accepted sends off)]
  exact ⟨rfl, rfl, rfl, rfl, rfl⟩

theorem submitNotice_periodic (active : s.line.link = .active)
    (off : ∀ e ∈ s.line.queue, frameClass e.frame = 4 → e.onLine = false) :
    (submitNotice s).notice.periodicLeft = some 2000 := by
  rw [submitNotice_accepted (txAnswer_notice_accepted (by rw [active]; rfl) off)]
  exact if_pos active

theorem submitNotice_link (s : State) : (submitNotice s).line.link = s.line.link := (submitNotice_only s).link rfl

theorem submitNotice_timers (s : State) : (submitNotice s).line.joinLeft = s.line.joinLeft :=
  (submitNotice_only s).joinLeft rfl

/-- With a NOTICE on the line the submission is owed (R93). -/
theorem submitNotice_owed (sends : linkSends s.line.link = true)
    (on : ∃ e ∈ s.line.queue, frameClass e.frame = 4 ∧ e.onLine = true) :
    (submitNotice s).line = s.line ∧ (submitNotice s).notice.owed = true ∧
      (submitNotice s).notice.last = s.notice.last := by
  rw [submitNotice_full (txAnswer_notice_full sends on)]
  exact ⟨rfl, rfl, rfl⟩

theorem exec_joinTimer (link : s.line.link = .joining) (left : s.line.joinLeft = some n) :
    exec .joinTimer s = .next (submitNotice { elapse n s with line := { (elapse n s).line with joinLeft := some 1000 } }) := by
  change execJoinTimer s = _
  unfold execJoinTimer
  rw [link, left]
  rfl

theorem exec_periodicTimer (link : s.line.link = .active) (left : s.notice.periodicLeft = some n) :
    exec .periodicTimer s =
      .next (submitNotice { elapse n s with notice := { (elapse n s).notice with periodicLeft := none } }) := by
  change execPeriodicTimer s = _
  unfold execPeriodicTimer
  rw [link, left]
  rfl

theorem exec_spacingTimer (link : s.line.link = .active) (spacing : s.notice.spacing = some n)
    (changed : s.notice.changed = true) : exec .spacingTimer s = .next (submitIfDifferent (elapse (250 - n) s)) := by
  change execSpacingTimer s = _
  unfold execSpacingTimer
  rw [link, spacing, changed]
  rfl

/-- A content that differs from the last one sent is submitted (R92). -/
theorem submitIfDifferent_of_differs (differs : s.notice.last ≠ some (noticeContent s)) :
    submitIfDifferent (elapse n s) = submitNotice (elapse n s) := if_neg differs

/-- Settles O44: each timer's submission by whether a NOTICE is on the line. -/
theorem timersSubmitNotice : Obligations.TimersSubmitNotice := by
  unfold Obligations.TimersSubmitNotice
  refine fun s n => ⟨fun link left => ?_, fun link left => ?_, fun link spacing changed => ?_⟩
  · have sends : linkSends s.line.link = true := by rw [link]; rfl
    let t : State := { elapse n s with line := { (elapse n s).line with joinLeft := some 1000 } }
    refine ⟨fun off => ⟨_, exec_joinTimer link left, noticeSent_submitNotice (s := t) sends off, submitNotice_timers t,
      (submitNotice_link t).trans link⟩, fun on => ⟨_, exec_joinTimer link left, ?_⟩⟩
    obtain ⟨line, owed, last⟩ := submitNotice_owed (s := t) sends on
    exact ⟨by rw [line]; rfl, owed, by rw [line], last⟩
  · have sends : linkSends s.line.link = true := by rw [link]; rfl
    let t : State := { elapse n s with notice := { (elapse n s).notice with periodicLeft := none } }
    refine ⟨fun off => ⟨_, exec_periodicTimer link left, noticeSent_submitNotice (s := t) sends off,
      submitNotice_periodic (s := t) link off, (submitNotice_link t).trans link⟩,
      fun on => ⟨_, exec_periodicTimer link left, ?_⟩⟩
    obtain ⟨line, owed, last⟩ := submitNotice_owed (s := t) sends on
    exact ⟨by rw [line]; rfl, owed, last⟩
  · have sends : linkSends s.line.link = true := by rw [link]; rfl
    refine ⟨fun differs off => ⟨_, exec_spacingTimer link spacing changed, ?_⟩,
      fun differs on => ⟨_, exec_spacingTimer link spacing changed, ?_⟩,
      fun same => ⟨_, exec_spacingTimer link spacing changed, ?_⟩⟩
    · rw [submitIfDifferent_of_differs differs]
      exact ⟨noticeSent_submitNotice (s := elapse (250 - n) s) sends off,
        submitNotice_periodic (s := elapse (250 - n) s) link off⟩
    · rw [submitIfDifferent_of_differs differs]
      obtain ⟨line, owed, last⟩ := submitNotice_owed (s := elapse (250 - n) s) sends on
      exact ⟨by rw [line]; rfl, owed, last⟩
    · rw [show submitIfDifferent (elapse (250 - n) s) =
        { elapse (250 - n) s with notice := { (elapse (250 - n) s).notice with changed := false } } from if_pos same]
      exact ⟨rfl, rfl, rfl⟩

/-! ## LISTEN-ONLY -/

theorem exec_listenOnlyTimer (running : s.line.listen = .running n) :
    exec .listenOnlyTimer s = .next (enterJoining (elapse n s)) := by
  change execListenOnlyTimer s = _
  unfold execListenOnlyTimer
  rw [running]
  rfl

/-- Settles O45: JOINING is entered with its timers, and what follows in the fetch engine leaves link, timers and events. -/
theorem listenOnlyEnds : Obligations.ListenOnlyEnds := by
  unfold Obligations.ListenOnlyEnds
  refine fun s => ⟨fun n running => ⟨_, exec_listenOnlyTimer running, ?_⟩, fun held => ?_⟩
  · let t : State := setLink .joining (elapse n s)
    let u : State := { t with line := { t.line with joinLeft := some 300, listen := .stopped } }
    have follow : Only openParts u (enterJoining (elapse n s)) := fetchFollow_only u
    exact ⟨follow.link rfl, follow.joinLeft rfl, follow.listen rfl, follow.echoMiss rfl, follow.events rfl⟩
  · change execListenOnlyTimer s = _
    unfold execListenOnlyTimer
    rw [held]
    rfl

/-! ## Peers -/

/-- Settles O46: the table that time has passed over, without the address. -/
theorem silentPeerForgotten : Obligations.SilentPeerForgotten := by
  unfold Obligations.SilentPeerForgotten
  intro s a p found
  let rest : List Peer := (s.notice.peers.map (Peer.elapse (6000 - p.heard))).filter (fun q => q.addr ≠ a)
  have runs : exec (.peerAgedOut a) s = .next (setPeers rest (elapse (6000 - p.heard) s)) := by
    change execPeerAgedOut a s = _
    unfold execPeerAgedOut
    rw [found]
    rfl
  refine ⟨_, runs, ?_, fun q hq => ?_, fun i => ?_⟩
  · rw [setPeers_peers, List.filter_map]
    dsimp only [rest]
    rw [List.filter_map, List.map_map]
    rfl
  · obtain ⟨r, hr, rfl⟩ := List.mem_map.mp (List.mem_of_mem_filter hq)
    exact ⟨r, hr, rfl, rfl, rfl, rfl⟩
  · have same : ctxOf (setPeers rest (elapse (6000 - p.heard) s)) i = (ctxOf s i).elapse (6000 - p.heard) := ctxOf_elapse ..
    rw [same]
    exact ⟨rfl, rfl⟩

/-! ## Serve delay -/

/-- An entry after a time: the delay timer of a WAITING entry moves (R139). -/
def ServeEntry.elapse (n : Nat) (e : ServeEntry) : ServeEntry :=
  if e.state = .waiting then { e with delayLeft := e.delayLeft - n } else e

theorem elapse_serveQueue (n : Nat) (s : State) : (elapse n s).serve.queue = s.serve.queue.map (ServeEntry.elapse n) := rfl

@[simp] theorem ServeEntry.elapse_isFor (n : Nat) (e : ServeEntry) (k : Key) (b : Block) :
    (e.elapse n).isFor k b = e.isFor k b := by
  unfold ServeEntry.elapse
  split <;> rfl

@[simp] theorem ServeEntry.elapse_state (n : Nat) (e : ServeEntry) : (e.elapse n).state = e.state := by
  unfold ServeEntry.elapse
  split <;> rfl

@[simp] theorem ServeEntry.elapse_offerQueued (n : Nat) (e : ServeEntry) : (e.elapse n).offerQueued = e.offerQueued := by
  unfold ServeEntry.elapse
  split <;> rfl

theorem ServeEntry.isFor_self (e : ServeEntry) : e.isFor e.key e.block = true := by simp [ServeEntry.isFor]

/-- The change of the entry for a key and block that stands among others. -/
theorem updateEntry_queue {before after : List ServeEntry} {e : ServeEntry} {k : Key} {b : Block} {f : ServeEntry → ServeEntry}
    (queue : s.serve.queue = before ++ e :: after) (here : e.isFor k b = true)
    (others : ∀ x ∈ before ++ after, x.isFor k b = false) :
    (updateEntry k b f s).serve.queue = before ++ f e :: after := by
  have same {l : List ServeEntry} (h : ∀ x ∈ l, x.isFor k b = false) :
      l.map (fun x => if x.isFor k b then f x else x) = l :=
    (List.map_congr_left fun x hx => by rw [h x hx]; rfl).trans (List.map_id l)
  have first := same fun x hx => others x (List.mem_append_left after hx)
  have last := same fun x hx => others x (List.mem_append_right before hx)
  unfold updateEntry
  rw [setServeQueue_queue, queue, List.map_append, List.map_cons, first, last, if_pos here]

/-- The OFFER submission of R140 changes at most the record of what the oldest entry has offered. -/
theorem offerNext_queue (s : State) : (offerNext s).serve.queue = s.serve.queue ∨
    ∃ e es, s.serve.queue = e :: es ∧
      (offerNext s).serve.queue = { e with offered := e.mask, offerQueued := true } :: es := by
  unfold offerNext
  split
  · exact .inl rfl
  · rename_i e es queue
    split
    · exact .inl rfl
    · split
      · exact .inr ⟨e, es, queue, rfl⟩
      · exact .inl rfl

/-- The OFFER of the oldest entry joins the transmit queue when it is OFFERING, nothing is SENDING, none is queued and the queue
takes it (R140). -/
theorem offerNext_of_ready {e : ServeEntry} {es : List ServeEntry} (queue : s.serve.queue = e :: es)
    (offering : e.state = .offering) (free : e.offerQueued = false)
    (others : ∀ x ∈ es, x.state ≠ .sending ∧ x.offerQueued = false)
    (accepted : txAnswer s.line (.offer e.key e.block e.mask) = .accepted) :
    offerNext s = setServeQueue ({ e with offered := e.mask, offerQueued := true } :: es)
      { s with line := { s.line with
          queue := s.line.queue ++ [TxEntry.mk (.offer e.key e.block e.mask) .serveOffer 0 false true] } } := by
  have idle : (e :: es).any (fun x => x.state = .sending || x.offerQueued) = false := by
    rw [List.any_eq_false]
    intro x hx
    obtain rfl | hx := List.mem_cons.mp hx
    · simp [offering, free]
    · simpa using others x hx
  unfold offerNext txSubmit
  rw [queue]
  simp only [idle, offering, accepted, ne_eq, not_true, decide_false, Bool.or_false, Bool.false_eq_true, if_false, if_true]
  rfl

theorem exec_serveDelay {e : ServeEntry} (waiting : waitingEntry s = some e) :
    exec .serveDelay s = .next (enterOffering e.key e.block (elapse e.delayLeft s)) := by
  change execServeDelay s = _
  unfold execServeDelay
  rw [waiting]
  rfl

/-- Settles O48: the oldest WAITING entry in its place among the others, then the OFFER submission of R140. -/
theorem delayedEntryOffers : Obligations.DelayedEntryOffers := by
  unfold Obligations.DelayedEntryOffers
  intro s before after e queue waiting first others
  have oldest : waitingEntry s = some e := by
    have skipped : before.find? (fun x => decide (x.state = .waiting)) = none :=
      List.find?_eq_none.mpr fun x hx => by simpa using first x hx
    unfold waitingEntry
    rw [queue, List.find?_append, skipped, List.find?_cons_of_pos (by simpa using waiting)]
    rfl
  have run := exec_serveDelay oldest
  let f : ServeEntry := { e with state := .offering, delayLeft := 0 }
  let t : State := updateEntry e.key e.block (fun x => { x with state := .offering, delayLeft := 0 }) (elapse e.delayLeft s)
  have entered : t.serve.queue =
      before.map (ServeEntry.elapse e.delayLeft) ++ f :: after.map (ServeEntry.elapse e.delayLeft) := by
    have passed : (elapse e.delayLeft s).serve.queue = before.map (ServeEntry.elapse e.delayLeft) ++
        e.elapse e.delayLeft :: after.map (ServeEntry.elapse e.delayLeft) := by
      rw [elapse_serveQueue, queue, List.map_append, List.map_cons]
    have changed := updateEntry_queue (f := fun x => { x with state := .offering, delayLeft := 0 }) passed
      ((ServeEntry.elapse_isFor ..).trans e.isFor_self) (k := e.key) (b := e.block) fun x hx => by
        rw [← List.map_append] at hx
        obtain ⟨y, hy, rfl⟩ := List.mem_map.mp hx
        rw [ServeEntry.elapse_isFor]
        exact others y hy
    rw [show t.serve.queue = _ from changed, ServeEntry.elapse, if_pos waiting]
  refine ⟨?_, fun head free idle accepted => ?_⟩
  · obtain same | ⟨g, gs, head, offered⟩ := offerNext_queue t
    · refine ⟨_, f, run, ?_, rfl, rfl, rfl, rfl, ?_⟩
      · rw [show (enterOffering e.key e.block _).serve.queue = _ from same, entered]
        simp
      · rw [show (enterOffering e.key e.block _).serve.queue = _ from same, entered, queue]
        simp
    · have offered : (enterOffering e.key e.block (elapse e.delayLeft s)).serve.queue = _ := offered
      have size : (g :: gs).length = s.serve.queue.length := by rw [← head, entered, queue]; simp
      have place : f ∈ g :: gs := by rw [← head, entered]; simp
      obtain rfl | later := List.mem_cons.mp place
      · have renewed : { f with offered := f.mask, offerQueued := true } ∈
            (enterOffering e.key e.block (elapse e.delayLeft s)).serve.queue := by
          rw [offered]
          exact List.mem_cons_self
        exact ⟨_, _, run, renewed, rfl, rfl, rfl, rfl, by rw [offered]; exact size⟩
      · exact ⟨_, f, run, offered ▸ List.mem_cons_of_mem _ later, rfl, rfl, rfl, rfl, by rw [offered]; exact size⟩
  · subst head
    have submitted := offerNext_of_ready (s := t) entered rfl free (fun x hx => by
      obtain ⟨y, hy, rfl⟩ := List.mem_map.mp hx
      simpa using idle y hy) accepted
    refine ⟨_, run, ?_, ?_⟩
    · rw [show enterOffering e.key e.block (elapse e.delayLeft s) = _ from submitted]
      rfl
    · rw [show enterOffering e.key e.block (elapse e.delayLeft s) = _ from submitted]
      rfl

end Sys2Proof.Machine
end

section
/-! SUPPORT. FETCH CONTEXTS: what an operation on one context leaves of the others, the entry to ASKING, and the timers of the
fetch engine (R99, R108, R110, R112, R114, R123 to R127). -/

namespace Sys2Proof.Machine

variable {s t u : State} {i j : Fin 4}

/-! ## One context among the others -/

theorem ctxOf_setCtx_of_ne (h : i ≠ j) (c : Ctx) (s : State) : ctxOf (setCtx j c s) i = ctxOf s i := by
  unfold ctxOf setCtx
  exact Vector.getElem_set_ne j.isLt i.isLt fun e => h (Fin.ext e.symm)

theorem Only.ctx {ps : List Part} (h : Only ps s t) (off : ps.elem .ctxs = false) (i : Fin 4) : ctxOf t i = ctxOf s i := by
  unfold ctxOf
  rw [show t.fetch.ctxs = s.fetch.ctxs from h.keep .ctxs off]

/-- A context goes on as it was, but for what its ASK makes of it: the address asked, and whether the ASK is queued. -/
def CtxGoesOn (i : Fin 4) (s t : State) : Prop :=
  ctxOf t i = { ctxOf s i with asked := (ctxOf t i).asked, askQueued := (ctxOf t i).askQueued }

theorem CtxGoesOn.of_eq (h : ctxOf t i = ctxOf s i) : CtxGoesOn i s t := by
  unfold CtxGoesOn
  rw [h]

theorem CtxGoesOn.refl (i : Fin 4) (s : State) : CtxGoesOn i s s := .of_eq rfl

theorem CtxGoesOn.trans (h : CtxGoesOn i s t) (k : CtxGoesOn i t u) : CtxGoesOn i s u := by
  unfold CtxGoesOn at *
  rw [k, h]

theorem CtxGoesOn.state (h : CtxGoesOn i s t) : (ctxOf t i).state = (ctxOf s i).state := by rw [show ctxOf t i = _ from h]

/-- The submission of an ASK touches nothing of its context but the address asked and whether it is queued (R112). -/
theorem submitAsk_goesOn (i j : Fin 4) (s : State) : CtxGoesOn i s (submitAsk j s) := by
  have set (c : Ctx) (s' : State) (hs : s'.fetch = s.fetch)
      (hc : c = { ctxOf s j with asked := c.asked, askQueued := c.askQueued }) : CtxGoesOn i s (setCtx j c s') := by
    have kept : ctxOf s' i = ctxOf s i := by unfold ctxOf; rw [hs]
    by_cases own : i = j
    · subst own
      unfold CtxGoesOn
      rw [setCtx_get]
      exact hc
    · exact .of_eq ((ctxOf_setCtx_of_ne own c s').trans kept)
  unfold submitAsk
  dsimp only
  split
  · exact set _ _ ((txSubmit_only _ _ s).fetch rfl) rfl
  · exact set _ _ rfl rfl

theorem submitHeld_goesOn (i : Fin 4) (s : State) : CtxGoesOn i s (submitHeld s) := by
  unfold submitHeld
  generalize ctxIds = l
  induction l generalizing s with
  | nil => exact .refl i s
  | cons j js ih =>
    refine CtxGoesOn.trans ?_ (ih _)
    dsimp only
    split
    · exact submitAsk_goesOn i j s
    · exact .refl i s

theorem idleCtx_state (h : idleCtx s = some j) : (ctxOf s j).state = .idle := by
  simpa using List.find?_some h

/-! ## Entry to ASKING -/

/-- A context as it enters ASKING (R110). -/
def Ctx.ask (c : Ctx) : Ctx :=
  { c with state := .asking, tries := c.tries + 1, wanted := ~~~ c.programmed, endIndex := none, askQueued := false,
           claimLeft := 0, silenceLeft := 0 }

theorem enterAsking_of_tries (h : (ctxOf s i).tries < 5) :
    enterAsking i s = if submitsAsk (setCtx i (ctxOf s i).ask s) then submitAsk i (setCtx i (ctxOf s i).ask s)
      else setCtx i (ctxOf s i).ask s := if_neg (Nat.not_le.mpr h)

theorem enterAsking_goesOn (h : (ctxOf s i).tries < 5) (j : Fin 4) :
    CtxGoesOn j (setCtx i (ctxOf s i).ask s) (enterAsking i s) := by
  rw [enterAsking_of_tries h]
  split
  · exact submitAsk_goesOn j i _
  · exact .refl j _

/-- Before the fifth try a context that enters ASKING wants every segment that is not programmed (R110). -/
theorem ctxOf_enterAsking (h : (ctxOf s i).tries < 5) :
    ctxOf (enterAsking i s) i = { (ctxOf s i).ask with
      asked := (ctxOf (enterAsking i s) i).asked, askQueued := (ctxOf (enterAsking i s) i).askQueued } := by
  have entered := enterAsking_goesOn h i
  unfold CtxGoesOn at entered
  rwa [setCtx_get] at entered

/-! ## What follows in the fetch engine -/

theorem submitErase_ctx (j : Fin 4) (b : Block) (s : State) (i : Fin 4) : ctxOf (submitErase j b s) i = ctxOf s i :=
  (submitErase_only j b s).ctx rfl i

/-- The opening of a context leaves the others (R109). -/
theorem openOn_goesOn (h : i ≠ j) (b : Block) (s : State) : CtxGoesOn i s (openOn j b s) := by
  unfold openOn
  extract_lets c
  split
  · exact .of_eq ((submitErase_ctx ..).trans (ctxOf_setCtx_of_ne h ..))
  · have untried : (ctxOf (setCtx j c s) j).tries < 5 := by rw [setCtx_get]; exact Nat.succ_pos 4
    refine CtxGoesOn.trans (.of_eq ?_) (enterAsking_goesOn untried i)
    rw [ctxOf_setCtx_of_ne h, ctxOf_setCtx_of_ne h]

theorem openOne_goesOn (h : (ctxOf s i).state ≠ .idle) : CtxGoesOn i s (openOne s) := by
  unfold openOne
  split
  · split
    · rename_i j b idle _
      have other : i ≠ j := by
        rintro rfl
        exact h (idleCtx_state idle)
      exact openOn_goesOn other b s
    · exact .refl i s
  · exact .refl i s

theorem openContexts_goesOn (h : (ctxOf s i).state ≠ .idle) : CtxGoesOn i s (openContexts s) := by
  have one {s : State} (h : (ctxOf s i).state ≠ .idle) : CtxGoesOn i s (openOne s) ∧ (ctxOf (openOne s) i).state ≠ .idle := by
    have goesOn := openOne_goesOn h
    exact ⟨goesOn, by rwa [goesOn.state]⟩
  obtain ⟨first, h⟩ := one h
  obtain ⟨second, h⟩ := one h
  obtain ⟨third, h⟩ := one h
  exact ((first.trans second).trans third).trans (openOne_goesOn h)

/-- Held ASKs and new openings leave an open context as it was, but for its own ASK (R108, R112). -/
theorem fetchFollow_goesOn (h : (ctxOf s i).state ≠ .idle) : CtxGoesOn i s (fetchFollow s) := by
  have held := submitHeld_goesOn i s
  have open_ : (ctxOf (submitHeld s) i).state ≠ .idle := by rwa [held.state]
  exact held.trans (openContexts_goesOn open_)

/-! ## The end of a serve -/

/-- A context as its serve has ended (R123). -/
def Ctx.settle (c : Ctx) : Ctx := { c with state := .settling, endIndex := none, silenceLeft := 0 }

theorem serveEnded_eq (i : Fin 4) (s : State) : serveEnded i s = evaluate i (setCtx i (ctxOf s i).settle s) := rfl

/-- A context with a buffer or a job outstanding settles (R123, R124). -/
theorem serveEnded_of_outstanding (h : (ctxOf s i).buffers ≠ [] ∨ (ctxOf s i).job ≠ .none) :
    serveEnded i s = setCtx i (ctxOf s i).settle s := by
  rw [serveEnded_eq]
  unfold evaluate
  rw [setCtx_get]
  refine if_neg ?_
  obtain buffers | job := h
  · have some : (ctxOf s i).buffers.isEmpty = false := by simpa using buffers
    simp [Ctx.settle, some]
  · simp [Ctx.settle, job]

/-- With nothing outstanding, a context whose segments are all programmed is verified (R124, R125). -/
theorem serveEnded_of_programmed (buffers : (ctxOf s i).buffers = []) (job : (ctxOf s i).job = .none)
    (whole : (ctxOf s i).programmed = 0xFFFF) :
    ctxOf (serveEnded i s) i = { (ctxOf s i).settle with state := .verifying, job := .verify } := by
  rw [serveEnded_eq]
  unfold evaluate
  rw [setCtx_get, if_pos (by simp [Ctx.settle, buffers, job])]
  refine (if_pos whole).symm ▸ ?_
  rw [(submit_onlyParts ..).ctx rfl i, (blockEvent_only ..).ctx rfl i, setCtx_get]

/-- With nothing outstanding, a context that misses segments enters ASKING again (R124, R126). -/
theorem serveEnded_of_missing (buffers : (ctxOf s i).buffers = []) (job : (ctxOf s i).job = .none)
    (missing : (ctxOf s i).programmed ≠ 0xFFFF) :
    serveEnded i s = enterAsking i (setCtx i (ctxOf s i).settle s) := by
  rw [serveEnded_eq]
  unfold evaluate
  rw [setCtx_get, if_pos (by simp [Ctx.settle, buffers, job])]
  exact if_neg missing

/-! ## The timers -/

theorem exec_claimWindow (h : (ctxOf s i).state = .claiming) : exec (.claimWindow i) s =
    .next (fetchFollow (enterAsking i (updateCtx i (fun c => { c with server := none })
      (addTally (ctxOf s i).asked (elapse (ctxOf s i).claimLeft s))))) := if_pos h

theorem exec_silenceTimer (h : (ctxOf s i).state = .receiving) : exec (.silenceTimer i) s =
    .next (fetchFollow (serveEnded i (elapse (ctxOf s i).silenceLeft s))) := if_pos h

theorem exec_deferralTimer {d : Deferral} {ds : List Deferral} (h : s.fetch.deferral = d :: ds) :
    exec .deferralTimer s = .next (openContexts { elapse d.left s with
      fetch := { (elapse d.left s).fetch with deferral := (elapse d.left s).fetch.deferral.drop 1 } }) := by
  change execDeferralTimer s = _
  unfold execDeferralTimer
  rw [h]
  rfl

/-- One more unanswered ask of the address asked, at most 3; target 0 adds none (R99). -/
theorem addTally_tallies (a : Addr) (s : State) :
    (addTally a s).notice.peers.map (fun p => (p.addr, p.tally)) =
      s.notice.peers.map (fun p => (p.addr, if a ≠ 0 ∧ p.addr = a then min 3 (p.tally + 1) else p.tally)) := by
  unfold addTally
  split
  · rename_i zero
    simp [zero]
  · rename_i asked
    unfold updatePeer
    rw [setPeers_peers, List.map_map]
    refine List.map_congr_left fun p _ => ?_
    by_cases here : p.addr = a
    · simp only [Function.comp, here, if_true, ne_eq, asked, not_false_eq_true, and_self]
    · simp only [Function.comp, here, if_false, and_false]

theorem elapse_tallies (n : Nat) (s : State) (f : Addr × Nat → Addr × Nat) :
    (elapse n s).notice.peers.map (fun p => f (p.addr, p.tally)) = s.notice.peers.map (fun p => f (p.addr, p.tally)) := by
  change (s.notice.peers.map (Peer.elapse n)).map _ = _
  rw [List.map_map]
  rfl

/-- The expiry of a claim window before the fifth try (R99, R114). -/
theorem claimWindow_asks (h : (ctxOf s i).state = .claiming) (tries : (ctxOf s i).tries < 5) :
    ∃ t, exec (.claimWindow i) s = .next t ∧ (ctxOf t i).state = .asking ∧
      (ctxOf t i).tries = (ctxOf s i).tries + 1 ∧ (ctxOf t i).wanted = ~~~ (ctxOf s i).programmed ∧
      (ctxOf t i).server = none ∧ (ctxOf t i).block = (ctxOf s i).block ∧
      t.notice.peers.map (fun p => (p.addr, p.tally)) = s.notice.peers.map (fun p => (p.addr,
        if (ctxOf s i).asked ≠ 0 ∧ p.addr = (ctxOf s i).asked then min 3 (p.tally + 1) else p.tally)) := by
  let passed : State := elapse (ctxOf s i).claimLeft s
  let told : State := addTally (ctxOf s i).asked passed
  let u : State := updateCtx i (fun c => { c with server := none }) told
  have context : ctxOf u i = { (ctxOf s i).elapse (ctxOf s i).claimLeft with server := none } := by
    rw [show ctxOf u i = { ctxOf told i with server := none } from setCtx_get ..,
      show ctxOf told i = ctxOf passed i from (addTally_only ..).ctx rfl i, ctxOf_elapse]
  have untried : (ctxOf u i).tries < 5 := by rw [context]; exact tries
  have entered := ctxOf_enterAsking untried
  have open_ : (ctxOf (enterAsking i u) i).state ≠ .idle := by rw [entered]; exact nofun
  have final : ctxOf (fetchFollow (enterAsking i u)) i = _ := fetchFollow_goesOn open_
  refine ⟨_, exec_claimWindow h, ?_, ?_, ?_, ?_, ?_, ?_⟩
  · rw [final, entered]; rfl
  · rw [final, entered, context]; rfl
  · rw [final, entered, context]; rfl
  · rw [final, entered, context]; rfl
  · rw [final, entered, context]; rfl
  · rw [(fetchFollow_only _).peers rfl, (enterAsking_onlyAsks untried).peers rfl]
    exact (addTally_tallies _ passed).trans
      (elapse_tallies _ s (fun q => (q.1, if (ctxOf s i).asked ≠ 0 ∧ q.1 = (ctxOf s i).asked then min 3 (q.2 + 1) else q.2)))

theorem deferralAdd_last (ds : List Deferral) (b : Block) :
    ((deferralAdd ds b).map Deferral.block).getLast? = some b := by
  unfold deferralAdd
  rw [List.map_append]
  exact List.getLast?_append_of_ne_nil _ (List.cons_ne_nil _ _)

/-- The fifth try's end defers the block (R126). -/
theorem deferBlock_defers (i : Fin 4) (s : State) :
    ((deferBlock i s).fetch.deferral.map Deferral.block).getLast? = some (ctxOf s i).block ∧
      (deferBlock i s).port.events =
        raiseIn .blockDeferred (byteDetail (BitVec.ofNat 8 (ctxOf s i).block.val)) s.port.events := by
  have released : Only ([.cat, .slots] ++ releaseParts) s (releaseCtx i (blockEvent .givenUp (ctxOf s i).block s)) :=
    (blockEvent_only ..).next (releaseCtx_only ..) rfl rfl
  refine ⟨deferralAdd_last _ _, ?_⟩
  exact congrArg (raiseIn .blockDeferred _) (released.events rfl)

theorem enterAsking_of_full (h : 5 ≤ (ctxOf s i).tries) : enterAsking i s = deferBlock i s := if_pos h

theorem claimWindow_defers (h : (ctxOf s i).state = .claiming) (tries : 5 ≤ (ctxOf s i).tries) :
    ∃ t, exec (.claimWindow i) s = .next t ∧
      (t.fetch.deferral.map Deferral.block).getLast? = some (ctxOf s i).block ∧
      t.port.events = raiseIn .blockDeferred (byteDetail (BitVec.ofNat 8 (ctxOf s i).block.val)) s.port.events := by
  let told : State := addTally (ctxOf s i).asked (elapse (ctxOf s i).claimLeft s)
  let u : State := updateCtx i (fun c => { c with server := none }) told
  have context : ctxOf u i = { (ctxOf s i).elapse (ctxOf s i).claimLeft with server := none } := by
    rw [show ctxOf u i = { ctxOf told i with server := none } from setCtx_get ..,
      show ctxOf told i = _ from (addTally_only ..).ctx rfl i, ctxOf_elapse]
  have counted : Only [.notice, .peers, .fetch, .ctxs] (elapse (ctxOf s i).claimLeft s) u :=
    (addTally_only ..).next (updateCtx_only ..) rfl rfl
  have full : 5 ≤ (ctxOf u i).tries := by rw [context]; exact tries
  obtain ⟨last, events⟩ := deferBlock_defers i u
  have follow := fetchFollow_only (enterAsking i u)
  refine ⟨_, exec_claimWindow h, ?_, ?_⟩
  · rw [show (fetchFollow (enterAsking i u)).fetch.deferral = _ from follow.deferral rfl, enterAsking_of_full full, last,
      context]
    rfl
  · rw [show (fetchFollow (enterAsking i u)).port.events = _ from follow.events rfl, enterAsking_of_full full, events,
      show u.port.events = _ from counted.events rfl, context]
    rfl

/-- The silence timer's expiry leaves a context open: what follows goes on from the settled one (R123). -/
theorem silenceTimer_context {c : Ctx} (h : (ctxOf s i).state = .receiving) (open_ : c.state ≠ .idle)
    (settled : CtxGoesOn i (setCtx i c (serveEnded i (elapse (ctxOf s i).silenceLeft s)))
      (serveEnded i (elapse (ctxOf s i).silenceLeft s))) :
    ∃ t, exec (.silenceTimer i) s = .next t ∧
      ctxOf t i = { c with asked := (ctxOf t i).asked, askQueued := (ctxOf t i).askQueued } := by
  have isOpen := settled.state
  rw [setCtx_get] at isOpen
  have final := settled.trans (fetchFollow_goesOn (isOpen ▸ open_))
  unfold CtxGoesOn at final
  rw [setCtx_get] at final
  exact ⟨_, exec_silenceTimer h, final⟩

/-- Settles O47: each timer's expiry, then what follows in the fetch engine, which leaves an open context as it is. -/
theorem fetchTimers : Obligations.FetchTimers := by
  unfold Obligations.FetchTimers
  refine fun s i => ⟨fun claiming => ⟨claimWindow_asks claiming, claimWindow_defers claiming⟩, fun receiving => ⟨?_, ?_, ?_⟩,
    fun d ds list => ⟨_, exec_deferralTimer list, ?_⟩⟩
  all_goals have context := ctxOf_elapse (ctxOf s i).silenceLeft s i
  · intro outstanding
    have ended := serveEnded_of_outstanding (s := elapse (ctxOf s i).silenceLeft s) (i := i) (by rwa [context])
    obtain ⟨t, run, final⟩ := silenceTimer_context (c := (ctxOf (elapse (ctxOf s i).silenceLeft s) i).settle) receiving nofun
      (by rw [ended]; exact .of_eq (by rw [setCtx_get, setCtx_get]))
    refine ⟨t, run, ?_⟩
    rw [final, context]
    exact ⟨rfl, rfl, rfl, rfl⟩
  · intro buffers job whole
    have ended := serveEnded_of_programmed (s := elapse (ctxOf s i).silenceLeft s) (i := i) (by rwa [context])
      (by rwa [context]) (by rwa [context])
    obtain ⟨t, run, final⟩ := silenceTimer_context receiving (c := { (ctxOf (elapse (ctxOf s i).silenceLeft s) i).settle with
        state := .verifying, job := .verify }) nofun (.of_eq (by rw [ended, setCtx_get]))
    exact ⟨t, run, by rw [final], by rw [final]⟩
  · intro buffers job missing tries
    have ended := serveEnded_of_missing (s := elapse (ctxOf s i).silenceLeft s) (i := i) (by rwa [context])
      (by rwa [context]) (by rwa [context])
    have untried : (ctxOf (setCtx i (ctxOf (elapse (ctxOf s i).silenceLeft s) i).settle
        (elapse (ctxOf s i).silenceLeft s)) i).tries < 5 := by
      rw [setCtx_get, context]
      exact tries
    have entered := ctxOf_enterAsking untried
    rw [← ended, setCtx_get, context] at entered
    obtain ⟨t, run, final⟩ := silenceTimer_context receiving nofun
      (c := (((ctxOf s i).elapse (ctxOf s i).silenceLeft).settle).ask) (by
        unfold CtxGoesOn
        rw [setCtx_get]
        exact entered)
    refine ⟨t, run, ?_⟩
    rw [final]
    exact ⟨rfl, rfl, rfl⟩
  · let u : State := { elapse d.left s with
      fetch := { (elapse d.left s).fetch with deferral := (elapse d.left s).fetch.deferral.drop 1 } }
    have opened := openContexts_only u
    refine ⟨?_, opened.port rfl⟩
    rw [show (openContexts u).fetch.deferral = _ from opened.deferral rfl]
    change ((s.fetch.deferral.map _).drop 1).map Deferral.block = _
    rw [list, List.map_cons, List.drop_one, List.tail_cons, List.map_map]
    rfl

end Sys2Proof.Machine
end

section
/-! SUPPORT. THE SEQUENCER'S TAKES AND THE END OF AN EVENT: a job submitted to an idle sequencer is taken, a job that is not
PROTECTED leaves nothing to drain, and, outside WIPE, what PROTECTED returns and the notice unit's watch can touch (R20, R22, R25,
R92). -/

namespace Sys2Proof.Machine

variable {s t : State} {q : Queue} {j : Job}

/-! ## Submissions -/

theorem jobs_setJobs (f : Sequencer) (q : Queue) (js : List Job) : (f.setJobs q js).jobs q = js := by cases q <;> rfl

theorem takeJob_flash (f : Sequencer) (s : State) (j : Job) :
    takeJob { s with flash := f } j = takeJob s j := by
  cases j <;> rfl

theorem takeJob_job (s : State) (j : Job) : (takeJob s j).job = j := by cases j <;> rfl

/-- The pick among queues that hold one job alone. -/
theorem pick_of_single {f : Sequencer} (h : f.noJobs = true) (q : Queue) (j : Job) :
    ∃ g, (f.setJobs q [j]).pick = some (j, g) ∧ g.noJobs = true := by
  have record := jobs_of_noJobs h .record
  have fetch := jobs_of_noJobs h .fetch
  have serve := jobs_of_noJobs h .serve
  have host := jobs_of_noJobs h .host
  simp only [Sequencer.jobs] at record fetch serve host
  cases q <;>
    simp [Sequencer.pick, Sequencer.pickServeHost, Sequencer.setJobs, Sequencer.noJobs, record, fetch, serve, host]

/-- A job submitted to an idle sequencer is taken in the same event (R22). -/
theorem submit_of_idle (idle : SequencerIdle s) (q : Queue) (j : Job) :
    (submit q j s).flash.service = some (takeJob s j) ∧ (submit q j s).flash.noJobs = true := by
  obtain ⟨free, empty⟩ := idle
  obtain ⟨g, picked, rest⟩ := pick_of_single empty q j
  have queued : s.flash.jobs q ++ [j] = [j] := by rw [jobs_of_noJobs empty q]; rfl
  unfold submit
  rw [if_pos (by simp [free, empty]), queued]
  unfold pickJob
  simp only [picked]
  exact ⟨congrArg some (takeJob_flash (s.flash.setJobs q [j]) s j), rest⟩

/-- While a job is in service or waits, a submission leaves the service as it is (R20). -/
theorem submit_of_busy (busy : ¬ SequencerIdle s) (q : Queue) (j : Job) :
    (submit q j s).flash.service = s.flash.service := by
  have busy : ¬ (decide (s.flash.service = none) && s.flash.noJobs) = true := by simpa [SequencerIdle] using busy
  unfold submit
  rw [if_neg busy]
  split
  · exact setJobs_service ..
  · rfl

/-- A submission takes no PROTECTED job, unless the job submitted is one (R22, R25). -/
theorem NotProtected.submit (h : NotProtected s) (hj : (takeJob s j).op ≠ .protectedReturn) :
    NotProtected (submit q j s) := by
  by_cases idle : SequencerIdle s
  · intro v hv
    rw [(submit_of_idle idle q j).1] at hv
    cases hv
    exact hj
  · intro v hv
    exact h v (by rwa [submit_of_busy idle] at hv)

theorem Only.free {ps : List Part} (h : Only ps s t) (off : ps.elem .service = false) (free : NotProtected s) :
    NotProtected t := by
  intro v hv
  rw [h.service off] at hv
  exact free v hv

/-! ## PROTECTED returns -/

/-- The parts that a PROTECTED return touches outside WIPE. -/
abbrev protectedParts : List Part := [.cat, .work, .port, .answer] ++ endCtxParts

theorem jobReturned_only (i : Fin 4) (s : State) : Only [.fetch, .ctxs] s (jobReturned i s) := updateCtx_only ..

theorem loadProtected_only (b : Block) (s : State) : Only [.cat, .slots, .port, .answer] s (loadProtected b s) :=
  (blockEvent_only ..).next (answer_only ..) rfl rfl

theorem eraseReturn_isProtected_only (hn : NoWipe s) (v : Service) : Only protectedParts s (eraseReturn v .isProtected s) := by
  unfold eraseReturn
  split
  · rename_i req x b _
    cases req with
    | fetch i =>
      refine .ite (fun _ => ?_) fun _ => ?_
      · unfold orphanErased
        exact .ite (fun blank => nomatch blank.1) fun _ => .refl ..
      · exact (((jobReturned_only i s).mono rfl).andThen (blockEvent_only .isProtected b _) rfl).andThen (endCtx_only i _) rfl
    | host => exact (loadProtected_only b s).mono rfl
    | wipe => rw [show wipeNext s = s from wipeNext_of_noWipe hn]; exact .refl ..
    | startUp => exact .refl ..
  · exact .refl ..

theorem programReturn_isProtected_only (v : Service) (s : State) :
    Only protectedParts s (programReturn v .isProtected s) := by
  unfold programReturn
  split
  · rename_i req _ b g d _
    cases req with
    | fetch i =>
      refine .ite (fun _ => (freeInFlight_only s).mono rfl) fun _ => ?_
      exact (((jobReturned_only i s).mono rfl).andThen (blockEvent_only .isProtected b _) rfl).andThen (endCtx_only i _) rfl
    | host => exact (loadProtected_only b s).mono rfl
    | wipe => exact .refl ..
    | startUp => exact .refl ..
  · exact .refl ..

theorem protectedReturn_only (hn : NoWipe s) (v : Service) : Only protectedParts s (protectedReturn v s) := by
  unfold protectedReturn
  split
  · exact (eraseReturn_isProtected_only hn v).andThen (endService_onlyParts _) rfl
  · exact (programReturn_isProtected_only v s).andThen (endService_onlyParts _) rfl
  · exact .refl ..

theorem drainProtected_only (hn : NoWipe s) (n : Nat) : Only protectedParts s (drainProtected n s) := by
  induction n generalizing s with
  | zero => exact .refl ..
  | succ n ih =>
    unfold drainProtected
    split
    · rename_i v _
      exact .ite (fun _ => (protectedReturn_only hn v).trans (ih ((calm_protectedReturn hn v).noWipe hn))) fun _ => .refl ..
    · exact .refl ..

/-- The end of an event, outside WIPE. -/
theorem settle_only (hn : NoWipe t) (before : State) : Only (.notice :: protectedParts) t (settle before t) :=
  ((drainProtected_only hn _).mono rfl).andThen (noticeWatch_only before _) rfl

/-- With no PROTECTED job in service, the end of an event is the notice unit's watch (R92). -/
theorem settle_of_notProtected (h : NotProtected t) (before : State) : settle before t = noticeWatch before t := by
  unfold settle
  rw [drainProtected_eq h]

theorem settle_onlyNotice (h : NotProtected t) (before : State) : Only [.line, .queue, .notice] t (settle before t) := by
  rw [settle_of_notProtected h]
  exact noticeWatch_only before t

end Sys2Proof.Machine
end

section
/-! SUPPORT. RECEPTION: frames discarded, clashes, and the frames that are delivered by class (R75, R80 to R82, R96, R98, R102, R115
to R119, R135 to R139). -/

namespace Sys2Proof.Machine

variable {s t : State} {src : Addr} {i : Fin 4}

/-! ## Frames that reach no other block -/

theorem receiveFrame_offline (off : s.line.link = .offline) (src : Addr) (format family : Bool) (deliver : State → State) :
    receiveFrame src format family deliver s = s := if_pos off

/-- A good frame of another station is touched, and delivered when it is of the station's family (R82). -/
theorem receiveFrame_heard (h : Heard s src) (family : Bool) (deliver : State → State) :
    receiveFrame src true family deliver s = if family then deliver (afterTouch src s) else afterTouch src s := by
  obtain ⟨on, legal, other⟩ := h
  have source : (src = 0 || src = 127 || !true) = false := by
    simpa [legalSource, Bool.and_eq_true] using legal
  unfold receiveFrame
  rw [if_neg on, if_neg (by simp only [source]; exact Bool.false_ne_true), if_neg other]
  rfl

theorem afterTouch_content (src : Addr) (s : State) : noticeContent s = noticeContent (afterTouch src s) := rfl

theorem settle_afterTouch (hp : NotProtected s) (src : Addr) : settle s (afterTouch src s) = afterTouch src s :=
  settle_eq hp (afterTouch_content src s)

theorem settle_self (hp : NotProtected s) : settle s s = s := settle_eq hp rfl

theorem linkEchoes_eq (l : LinkState) : linkEchoes l = (decide (l = .joining) || decide (l = .active)) := by
  cases l <;> rfl

theorem linkEchoes_iff (l : LinkState) : linkEchoes l = true ↔ l = .joining ∨ l = .active := by
  simp [linkEchoes_eq]

/-- Settles O36: a discarded frame by its kind, and each command of the line by the link that is OFFLINE. -/
theorem unheardFramesChangeNothing : Obligations.UnheardFramesChangeNothing := by
  unfold Obligations.UnheardFramesChangeNothing
  refine ⟨fun s bits dominant on kind => ?_, fun s off hp c kind => ?_⟩
  · have discarded : discards bits dominant = true := by
      unfold discards
      obtain h | h | h | h | ⟨⟨cls, src, payload, h⟩, rfl⟩ := kind <;> rw [h]
    change execFrameDiscarded bits dominant s = _
    unfold execFrameDiscarded proceed
    rw [if_neg on, if_pos discarded]
    unfold drivesEcho
    rw [linkEchoes_eq]
    cases receiveBits bits <;> rfl
  · have settled {u : State} (h : u = s) : conclude s u = .next s := by
      unfold conclude
      rw [h, settle_self hp]
    obtain rfl | rfl | ⟨bits, d, rfl⟩ | ⟨src, key, count, rfl⟩ | ⟨src, key, b, m, rfl⟩ | ⟨src, target, key, b, m, rfl⟩ |
      ⟨src, key, b, g, d, rfl⟩ | ⟨src, n, rfl⟩ := kind
    · exact if_pos off
    · exact if_pos off
    · exact if_pos off
    · exact settled (receiveFrame_offline off ..)
    · exact congrArg _ (receiveFrame_offline off ..)
    · exact congrArg _ (receiveFrame_offline off ..)
    · exact congrArg _ (receiveFrame_offline off ..)
    · exact settled (receiveFrame_offline off ..)

/-! ## Good frames of another station -/

theorem exec_releaseReceived {key : Key} {count : Byte} (h : Heard s src) : exec (.releaseReceived src key count) s =
    .next (settle s (if ofFamily s key then releaseCandidate src key count (afterTouch src s) else afterTouch src s)) := by
  change conclude s _ = _
  rw [receiveFrame_heard h]
  rfl

theorem exec_offerReceived {key : Key} {b : Block} {m : Mask} (h : Heard s src) (some : m ≠ 0) :
    exec (.offerReceived src key b m) s = .next (if ofFamily s key then
      fetchOffer src key b m (suppress key b m (afterTouch src s)) else afterTouch src s) := by
  change proceed (receiveFrame src (decide (m ≠ 0)) _ _ s) = _
  rw [decide_eq_true some, receiveFrame_heard h]
  rfl

theorem exec_askReceived {target : Byte} {key : Key} {b : Block} {m : Mask} (h : Heard s src) (some : m ≠ 0)
    (legal : target.toNat ≤ 126) : exec (.askReceived src target key b m) s = .next (if ofFamily s key then
      serveAsk (target.extractLsb' 0 7) key b m (afterTouch src s) else afterTouch src s) := by
  change proceed (receiveFrame src (decide (m ≠ 0) && decide (target.toNat ≤ 126)) _ _ s) = _
  rw [decide_eq_true some, decide_eq_true legal, Bool.and_self, receiveFrame_heard h]
  rfl

theorem exec_segmentReceived {key : Key} {b : Block} {g : Byte} {d : List Byte} (h : Heard s src) (index : g.toNat ≤ 15)
    (whole : d.length = 128) : exec (.segmentReceived src key b g d) s = .next (if ofFamily s key then
      fetchSegment key b (Fin.ofNat 16 g.toNat) d (afterTouch src s) else afterTouch src s) := by
  change proceed (receiveFrame src (decide (g.toNat ≤ 15) && decide (d.length = 128)) _ _ s) = _
  rw [decide_eq_true index, decide_eq_true whole, Bool.and_self, receiveFrame_heard h]
  rfl

theorem exec_noticeReceived {n : NoticeFrame} (h : Heard s src) : exec (.noticeReceived src n) s =
    .next (settle s (if noticeOfFamily s n then deliverNotice src n (afterTouch src s) else afterTouch src s)) := by
  change conclude s _ = _
  rw [receiveFrame_heard h]
  rfl

/-- Settles O37: a frame of another family stops at the touch, whatever its class. -/
theorem foreignFrameOnlyTouched : Obligations.ForeignFrameOnlyTouched := by
  unfold Obligations.ForeignFrameOnlyTouched
  refine fun s src h hp => ⟨linkEchoes_iff s.line.link, fun key foreign => ⟨fun count => ?_, fun b m some => ?_,
    fun target b m some legal => ?_, fun b g d index whole => ?_⟩, fun n foreign => ?_⟩
  · rw [exec_releaseReceived h, foreign]
    exact congrArg _ (settle_afterTouch hp src)
  · rw [exec_offerReceived h some, foreign]
    rfl
  · rw [exec_askReceived h some legal, foreign]
    rfl
  · rw [exec_segmentReceived h index whole, foreign]
    rfl
  · rw [exec_noticeReceived h, foreign]
    exact congrArg _ (settle_afterTouch hp src)

/-! ## An ASK -/

theorem serveAsk_of_eligible {target : Addr} {key : Key} {b : Block} {m : Mask} (eligible : askEligible s target key b = true)
    (new : findEntry s key b = none) : serveAsk target key b m s = createEntry key b m s := by
  unfold serveAsk
  rw [if_pos eligible, new]

/-- Settles O39: an ASK by its eligibility, the room in the serve queue and the station's delay. -/
theorem askMakesEntry : Obligations.AskMakesEntry := by
  unfold Obligations.AskMakesEntry
  intro s src target key b m h family some legal
  have run := exec_askReceived (key := key) (b := b) h some legal
  rw [family, if_pos rfl] at run
  refine ⟨fun not => ?_, fun eligible new => ?_⟩
  · rw [run]
    exact congrArg _ (if_neg (by rw [show askEligible (afterTouch src s) _ key b = _ from not]; exact Bool.false_ne_true))
  · rw [serveAsk_of_eligible (s := afterTouch src s) eligible new] at run
    refine ⟨fun room delay => ?_, fun room delay => ?_, fun full => ?_⟩
    · rw [run]
      unfold createEntry
      rw [if_neg (show ¬ 8 ≤ (afterTouch src s).serve.queue.length from Nat.not_le.mpr room)]
      exact congrArg _ (if_neg delay)
    · let t : State := setServeQueue (s.serve.queue ++ [newEntry key b m (serveDelay s)]) (afterTouch src s)
      let e : ServeEntry := { newEntry key b m (serveDelay s) with state := .offering, delayLeft := 0 }
      let u : State := updateEntry key b (fun e => { e with state := .offering, delayLeft := 0 }) t
      have created : createEntry key b m (afterTouch src s) = offerNext u := by
        unfold createEntry
        rw [if_neg (show ¬ 8 ≤ (afterTouch src s).serve.queue.length from Nat.not_le.mpr room)]
        exact if_pos delay
      have others : ∀ x ∈ s.serve.queue, x.isFor key b = false := by
        intro x hx
        have unknown := List.find?_eq_none.mp new x hx
        simpa using unknown
      have queue : u.serve.queue = s.serve.queue ++ e :: [] :=
        updateEntry_queue (after := []) (s := t) rfl (by simp [ServeEntry.isFor, newEntry]) (by simpa using others)
      have peers : (offerNext u).notice.peers = touched src s.notice.peers := (offerNext_only u).peers rfl
      rw [created] at run
      obtain same | ⟨f, fs, head, offered⟩ := offerNext_queue u
      · exact ⟨_, e, run, by rw [same, queue]; simp, rfl, rfl, rfl, rfl, peers⟩
      · have place : e ∈ f :: fs := by rw [← head, queue]; simp
        obtain rfl | later := List.mem_cons.mp place
        · have renewed : { e with offered := e.mask, offerQueued := true } ∈ (offerNext u).serve.queue := by
            rw [offered]
            exact List.mem_cons_self
          exact ⟨_, _, run, renewed, rfl, rfl, rfl, rfl, peers⟩
        · exact ⟨_, e, run, offered ▸ List.mem_cons_of_mem _ later, rfl, rfl, rfl, rfl, peers⟩
    · rw [run]
      exact congrArg _ (if_pos full)

end Sys2Proof.Machine
end

section
/-! SUPPORT. FRAMES DELIVERED: an OFFER and a SEGMENT heard by a context, and a NOTICE with its candidate keys (R56, R98, R102,
R115 to R120). -/

namespace Sys2Proof.Machine

variable {s t : State} {src : Addr} {i j : Fin 4} {key : Key} {b : Block} {m : Mask}

/-! ## An OFFER -/

/-- A context as it hears an OFFER (R115). -/
def Ctx.hearOffer (c : Ctx) (src : Addr) (k : Key) (b : Block) (m : Mask) : Ctx :=
  if c.counts k b m then
    c.receive src (if c.state = .receiving then max (c.endIndex.getD 0) (highestSeg m) else highestSeg m)
  else if c.state = .receiving && c.key = k && c.block = b then { c with silenceLeft := 50 }
  else c

theorem ctxOf_hearOffer (src : Addr) (k : Key) (b : Block) (m : Mask) (i : Fin 4) (s : State) :
    ctxOf (hearOffer src k b m i s) i = (ctxOf s i).hearOffer src k b m := by
  unfold hearOffer Ctx.hearOffer
  dsimp only
  split
  · split
    · rw [setCtx_get]
      refine congrArg (Ctx.receive (ctxOf s i) src) ?_
      cases (ctxOf s i).endIndex with
      | none => exact (max_eq_right (Fin.zero_le _)).symm
      | some e => rfl
    · split <;> rw [setCtx_get]
  · split
    · exact setCtx_get ..
    · rfl

theorem ctxOf_hearOffer_of_ne (h : i ≠ j) (src : Addr) (k : Key) (b : Block) (m : Mask) (s : State) :
    ctxOf (hearOffer src k b m j s) i = ctxOf s i := by
  unfold hearOffer
  dsimp only
  split
  · split
    · exact ctxOf_setCtx_of_ne h ..
    · split
      · exact (ctxOf_setCtx_of_ne h ..).trans ((txGiveUp_only _ s).ctx rfl i)
      · exact ctxOf_setCtx_of_ne h ..
  · split
    · exact ctxOf_setCtx_of_ne h ..
    · rfl

/-- Every context hears the OFFER once. -/
theorem ctxOf_foldl_hearOffer (src : Addr) (k : Key) (b : Block) (m : Mask) (l : List (Fin 4)) (once : l.Nodup) (s : State) :
    ctxOf (l.foldl (fun t i => hearOffer src k b m i t) s) i =
      if i ∈ l then (ctxOf s i).hearOffer src k b m else ctxOf s i := by
  induction l generalizing s with
  | nil => rfl
  | cons j js ih =>
    obtain ⟨new, once⟩ := List.nodup_cons.mp once
    rw [List.foldl_cons, ih once]
    by_cases own : i = j
    · subst own
      rw [if_neg new, if_pos List.mem_cons_self, ctxOf_hearOffer]
    · rw [ctxOf_hearOffer_of_ne own]
      simp [own]

/-- A serve joined takes an IDLE context (R116). -/
theorem ctxOf_joinServe (h : (ctxOf s i).state ≠ .idle) (src : Addr) (k : Key) (b : Block) (m : Mask) :
    ctxOf (joinServe src k b m s) i = ctxOf s i := by
  unfold joinServe
  split
  · rfl
  · rename_i j idle
    have other : i ≠ j := by
      rintro rfl
      exact h (idleCtx_state idle)
    split
    · dsimp only
      split
      · exact (submitErase_ctx ..).trans (ctxOf_setCtx_of_ne other ..)
      · exact ctxOf_setCtx_of_ne other ..
    · rfl

/-- A context that an OFFER counts for, after the fetch engine has heard it (R115). -/
theorem fetchOffer_context (counts : (ctxOf s i).counts key b m = true) :
    ctxOf (fetchOffer src key b m s) i = { (ctxOf s i).hearOffer src key b m with
      asked := (ctxOf (fetchOffer src key b m s) i).asked, askQueued := (ctxOf (fetchOffer src key b m s) i).askQueued } := by
  let heard : State := ctxIds.foldl (fun t i => hearOffer src key b m i t) s
  have context : ctxOf heard i = (ctxOf s i).hearOffer src key b m := by
    rw [show ctxOf heard i = _ from ctxOf_foldl_hearOffer src key b m ctxIds (by decide) s]
    exact if_pos (by fin_cases i <;> decide)
  have open_ : (ctxOf heard i).state ≠ .idle := by
    rw [context, Ctx.hearOffer, if_pos counts]
    exact nofun
  have joined := ctxOf_joinServe open_ src key b m
  have follow : CtxGoesOn i (joinServe src key b m heard) (fetchOffer src key b m s) :=
    fetchFollow_goesOn (by rw [joined]; exact open_)
  unfold CtxGoesOn at follow
  rwa [joined, context] at follow

/-- Settles O40: the context hears the OFFER, and what follows leaves it open and as it is. -/
theorem offerTakesContext : Obligations.OfferTakesContext := by
  unfold Obligations.OfferTakesContext
  intro s src key b m i h family some counts
  have run := exec_offerReceived (key := key) (b := b) h some
  rw [family, if_pos rfl] at run
  let u : State := suppress key b m (afterTouch src s)
  have kept : ctxOf u i = ctxOf s i := (suppress_only key b m (afterTouch src s)).ctx rfl i
  have final := fetchOffer_context (src := src) (s := u) (i := i) (by rw [kept]; exact counts)
  rw [kept, Ctx.hearOffer, if_pos counts] at final
  refine ⟨_, run, by rw [final]; rfl, by rw [final]; rfl, by rw [final]; rfl, by rw [final]; rfl, by rw [final]; rfl,
    by rw [final]; rfl, by rw [final]; rfl, ?_⟩
  rw [(fetchOffer_only src key b m u).peers rfl]
  exact (suppress_only key b m (afterTouch src s)).peers rfl

/-! ## A SEGMENT -/

/-- The submission of a context's next program touches nothing of the context but its job (R120). -/
theorem ctxOf_programNext (i : Fin 4) (s : State) :
    ctxOf (programNext i s) i = { ctxOf s i with job := (ctxOf (programNext i s) i).job } := by
  unfold programNext
  dsimp only
  split
  · rfl
  · split
    · rw [(submit_onlyParts ..).ctx rfl i, (blockEvent_only ..).ctx rfl i, setCtx_get]
    · rfl

theorem Only.poolFree {ps : List Part} (h : Only ps s t) (off : ps.elem .pool = false) : t.fetch.poolFree = s.fetch.poolFree :=
  (Prod.mk.inj (h.keep .pool off)).1

variable {g : Seg} {d : List Byte}

/-- A segment that its context wants and does not have (R118). -/
structure SegmentWanted (c : Ctx) (g : Seg) : Prop where
  wanted : hasSeg c.wanted g = true
  notProgrammed : hasSeg c.programmed g = false
  notBuffered : ∀ x ∈ c.buffers, x.1 ≠ g

theorem SegmentWanted.lacks {c : Ctx} (h : SegmentWanted c g) :
    (hasSeg c.programmed g || c.buffers.any (fun e => e.1 = g)) = false := by
  have none : c.buffers.any (fun e => e.1 = g) = false := by
    rw [List.any_eq_false]
    intro x hx
    simpa using h.notBuffered x hx
  rw [h.notProgrammed, none]
  rfl

/-- With a pool buffer free, a wanted segment takes it (R119). -/
theorem takeSegment_of_room (h : SegmentWanted (ctxOf s i) g) (room : 0 < s.fetch.poolFree) :
    takeSegment i g d s = programNext i { setCtx i { ctxOf s i with buffers := (ctxOf s i).buffers ++ [(g, d)] } s with
      fetch := { (setCtx i { ctxOf s i with buffers := (ctxOf s i).buffers ++ [(g, d)] } s).fetch with
        poolFree := s.fetch.poolFree - 1 } } := by
  unfold takeSegment
  dsimp only
  rw [if_neg (by simp [h.wanted]), if_neg (by rw [h.lacks]; exact Bool.false_ne_true), if_neg (Nat.ne_of_gt room)]
  rfl

/-- With no pool buffer free, a wanted segment is dropped and counted (R119). -/
theorem takeSegment_of_full (h : SegmentWanted (ctxOf s i) g) (full : s.fetch.poolFree = 0) :
    takeSegment i g d s = { s with fetch := { s.fetch with overrun := count16 s.fetch.overrun } } := by
  unfold takeSegment
  dsimp only
  rw [if_neg (by simp [h.wanted]), if_neg (by rw [h.lacks]; exact Bool.false_ne_true), if_pos full]

/-- Settles O41: a wanted segment by the room in the pool. -/
theorem segmentTakesBuffer : Obligations.SegmentTakesBuffer := by
  unfold Obligations.SegmentTakesBuffer
  intro s src key b g d i h family index whole receiver held wanted lacks unbuffered receiving later
  have run := exec_segmentReceived (key := key) (b := b) h index whole
  rw [family, if_pos rfl] at run
  let x : Seg := Fin.ofNat 16 g.toNat
  let c : Ctx := { ctxOf s i with claimLeft := 0, silenceLeft := 50 }
  let u : State := setCtx i c (afterTouch src s)
  have heard : (ctxOf s i).heardSegment = c := by
    unfold Ctx.heardSegment
    rw [if_neg (by rw [receiving]; exact nofun), ← receiving]
  have context : ctxOf u i = c := setCtx_get ..
  have want : SegmentWanted (ctxOf u i) x := by
    rw [context]
    exact ⟨wanted, lacks, unbuffered⟩
  have taken (t : State) (ht : takeSegment i x d u = t) (ends : (ctxOf t i).endIndex = (ctxOf s i).endIndex) :
      exec (.segmentReceived src key b g d) s = .next t := by
    rw [run]
    unfold fetchSegment
    rw [show receiverOf (afterTouch src s) b = some i from receiver]
    dsimp only
    rw [if_pos (show (stagingRec (afterTouch src s)).key = some key from held)]
    have updated : updateCtx i Ctx.heardSegment (afterTouch src s) = u := congrArg (fun c => setCtx i c _) heard
    rw [updated, show takeSegment i (Fin.ofNat 16 g.toNat) d u = t from ht, if_neg (by rw [ends]; exact later)]
  refine ⟨fun room => ?_, fun full => ?_⟩
  · let filled : Ctx := { c with buffers := c.buffers ++ [(x, d)] }
    let w : State := { setCtx i filled u with fetch := { (setCtx i filled u).fetch with poolFree := s.fetch.poolFree - 1 } }
    have stored : takeSegment i x d u = programNext i w := by
      rw [takeSegment_of_room want room, context]
      rfl
    have started := ctxOf_programNext i w
    rw [show ctxOf w i = filled from setCtx_get i filled u] at started
    have only := programNext_only i w
    refine ⟨_, taken _ stored (by rw [started]), by rw [started], only.poolFree rfl, only.overrun rfl,
      by rw [started]; exact receiving, by rw [started], only.serve rfl, only.port rfl⟩
  · have dropped : takeSegment i x d u = { u with fetch := { u.fetch with overrun := count16 s.fetch.overrun } } :=
      takeSegment_of_full want full
    have ends : (ctxOf u i).endIndex = (ctxOf s i).endIndex := by rw [context]
    exact ⟨_, taken _ dropped ends, context, rfl, rfl, rfl, rfl, rfl⟩

/-! ## A NOTICE -/

/-- What the judgement of a candidate key can do: nothing, a DIGEST-CONFLICT, a pending target, or a reclaim with no procedure
open (R56, R57). -/
theorem judge_cases (k : Key) (src : Addr) (s : State) : judge k src s = s ∨
    judge k src s = raise .digestConflict (byteDetail (src.zeroExtend 8)) s ∨
    (∃ p, judge k src s = setTarget p s) ∨ s.cat.procedure = .none ∧ judge k src s = startReclaim k s := by
  unfold judge
  split
  · exact .inl rfl
  · split
    · exact .inl rfl
    · split
      · exact .inr (.inl rfl)
      · split
        · unfold takeUp
          extract_lets settled
          split
          · rename_i settledNone
            exact .inr (.inr (.inr ⟨by simpa using (Bool.and_eq_true_iff.mp settledNone).2, rfl⟩))
          · split
            · split
              · exact .inr (.inr (.inl ⟨_, rfl⟩))
              · split
                · exact .inr (.inr (.inl ⟨_, rfl⟩))
                · exact .inl rfl
            · exact .inl rfl
        · exact .inl rfl

/-- A key that the station holds already leads to nothing (R56). -/
theorem judge_of_held {k : Key} (held : k ∈ heldKeys s) : judge k src s = s := by
  unfold judge
  split
  · rfl
  · exact if_pos (List.contains_iff_mem.mpr held)

theorem foldl_judge_of_held {ks : List Key} (held : ∀ k ∈ ks, k ∈ heldKeys s) :
    ks.foldl (fun t k => judge k src t) s = s := by
  induction ks with
  | nil => rfl
  | cons k ks ih =>
    rw [List.foldl_cons, judge_of_held (held k List.mem_cons_self)]
    exact ih fun k hk => held k (List.mem_cons_of_mem _ hk)

theorem deliverNotice_of_wellFormed {n : NoticeFrame} (h : noticeWellFormed n = true) :
    deliverNotice src n s = (noticeCandidates n).foldl (fun t k => judge k src t) (refreshPeer src n s) := if_pos h

/-! ## What an append as it is added leaves of the procedure -/

theorem Only.noWipe {ps : List Part} (h : Only ps s t) (off : ps.elem .procedure = false) (hn : NoWipe s) : NoWipe t := by
  intro step failed
  rw [show t.cat.procedure = s.cat.procedure from h.keep .procedure off]
  exact hn step failed

theorem addAppend_noWipe (hn : NoWipe s) (r : CommitRecord) : NoWipe (addAppend r s) := by
  unfold addAppend
  split
  · exact (calm_setFrozen _).noWipe hn
  · dsimp only
    split
    · exact (addWork_onlyParts ..).noWipe rfl hn
    · exact (addWork_onlyParts ..).noWipe rfl ((addWork_onlyParts ..).noWipe rfl hn)

theorem startReclaim_noWipe (k : Key) (s : State) : NoWipe (startReclaim k s) := by
  unfold startReclaim
  extract_lets old s1 s2 s3 s4 s5 s6
  have h1 : NoWipe s1 := (updateStaging_only ..).noWipe rfl ((setStagingState_only ..).noWipe rfl nofun)
  have h2 : NoWipe s2 := (abandon_only s1).noWipe rfl h1
  have h3 : NoWipe s3 := (cancelKey_only old s2).noWipe rfl h2
  have h4 : NoWipe s4 := (updateStaging_only _ s3).noWipe rfl h3
  have h5 : NoWipe s5 := (dropMarks_only _ s4).noWipe rfl h4
  exact addAppend_noWipe ((addWork_onlyParts _ s5).noWipe rfl h5) _

/-- The end of an event leaves the peer table, outside WIPE or with no PROTECTED job in service (R25, R92). -/
theorem settle_peers (h : NoWipe t ∨ NotProtected t) (before : State) :
    (settle before t).notice.peers = t.notice.peers := by
  obtain hn | hp := h
  · exact (settle_only hn before).peers rfl
  · exact (settle_onlyNotice hp before).peers rfl

/-- Where a WIPE is open, no job is in service that would be returned PROTECTED: what the judgement of a candidate keeps. -/
abbrev WipeSettled (s : State) : Prop := NoWipe s ∨ s.cat.procedure ≠ .none ∧ NotProtected s

theorem judge_wipeSettled (h : WipeSettled s) (k : Key) : WipeSettled (judge k src s) := by
  obtain same | conflict | ⟨p, target⟩ | ⟨_, reclaim⟩ := judge_cases k src s
  · rwa [same]
  · rwa [conflict]
  · rwa [target]
  · rw [reclaim]
    exact .inl (startReclaim_noWipe k s)

theorem foldl_judge_wipeSettled (h : WipeSettled s) (ks : List Key) :
    WipeSettled (ks.foldl (fun t k => judge k src t) s) := by
  induction ks generalizing s with
  | nil => exact h
  | cons k ks ih => exact ih (judge_wipeSettled h k)

theorem wipeSettled_of_notProtected (h : NotProtected s) : WipeSettled s := by
  by_cases open_ : s.cat.procedure = .none
  · exact .inl fun step failed => by rw [open_]; exact nofun
  · exact .inr ⟨open_, h⟩

/-- Settles O42: the refreshed entry stays through the judgement of the candidate keys and the end of the event. -/
theorem noticeRefreshesPeer : Obligations.NoticeRefreshesPeer := by
  unfold Obligations.NoticeRefreshesPeer
  intro s src n h family hp
  have run := exec_noticeReceived (n := n) h
  rw [family, if_pos rfl] at run
  let u : State := refreshPeer src n (afterTouch src s)
  let judged : State := (noticeCandidates n).foldl (fun t k => judge k src t) u
  refine ⟨fun ill => ?_, fun well => ⟨_, run, ?_⟩, fun well held => ?_⟩
  · rw [run, show deliverNotice src n (afterTouch src s) = afterTouch src s from
      if_neg (by rw [ill]; exact Bool.false_ne_true), settle_afterTouch hp]
  · rw [show deliverNotice src n (afterTouch src s) = judged from deliverNotice_of_wellFormed well]
    have settled : WipeSettled judged := foldl_judge_wipeSettled (wipeSettled_of_notProtected (s := u) hp) _
    have kept : Only judgeParts u judged := .foldl (fun t k => judge_only k src t) u _
    rw [settle_peers (settled.imp_right And.right), kept.peers rfl]
    rfl
  · have same : judged = u := foldl_judge_of_held (s := u) held
    rw [run, show deliverNotice src n (afterTouch src s) = judged from deliverNotice_of_wellFormed well, same,
      settle_eq (s := s) (t := u) hp rfl]
    rfl

end Sys2Proof.Machine
end

section
/-! SUPPORT. STEADY OPERATIONS: those after which this station's NOTICE reads as before and no PROTECTED job is in service, so that
the end of their event adds nothing; and those that leave the transmit queue as it was, but for new entries at its tail (R25, R77,
R90 to R92). -/

namespace Sys2Proof.Machine

variable {a s t u : State} {i j : Fin 4}

/-! ## The content of the NOTICE -/

theorem stagingSlot_ne (s : State) : stagingSlot s ≠ s.cat.activeSlot := by
  unfold stagingSlot
  cases s.cat.activeSlot <;> decide

@[simp] theorem setSlot_activeSlot (x : Slot) (r : SlotRecord) (s : State) :
    (setSlot x r s).cat.activeSlot = s.cat.activeSlot := by
  cases x <;> rfl

@[simp] theorem setSlot_stagingState (x : Slot) (r : SlotRecord) (s : State) :
    (setSlot x r s).cat.stagingState = s.cat.stagingState := by
  cases x <;> rfl

@[simp] theorem setSlot_activeState (x : Slot) (r : SlotRecord) (s : State) :
    (setSlot x r s).cat.activeState = s.cat.activeState := by
  cases x <;> rfl

@[simp] theorem setSlot_procedure (x : Slot) (r : SlotRecord) (s : State) :
    (setSlot x r s).cat.procedure = s.cat.procedure := by
  cases x <;> rfl

@[simp] theorem stagingSlot_setSlot (x : Slot) (r : SlotRecord) (s : State) : stagingSlot (setSlot x r s) = stagingSlot s := by
  unfold stagingSlot
  rw [setSlot_activeSlot]

theorem stagingSlot_other (s : State) : (stagingSlot s).other = s.cat.activeSlot := by
  unfold stagingSlot
  cases s.cat.activeSlot <;> rfl

theorem activeRec_setSlot (r : SlotRecord) (s : State) : activeRec (setSlot (stagingSlot s) r s) = activeRec s := by
  unfold activeRec
  rw [setSlot_activeSlot, ← stagingSlot_other, setSlot_other]

theorem stagingRec_setSlot (r : SlotRecord) (s : State) : stagingRec (setSlot (stagingSlot s) r s) = r := by
  unfold stagingRec
  rw [stagingSlot_setSlot, setSlot_get]

/-- The group map shows which blocks are VERIFIED, up to the block count (R91). -/
theorem groupMap_congr {r r' : SlotRecord} (count : r'.count = r.count)
    (verified : ∀ k, r'.state k = .verified ↔ r.state k = .verified) : groupMap r' = groupMap r := by
  have whole (g : Nat) : groupWhole r' g = groupWhole r g := by
    unfold groupWhole
    rw [count]
    simp only [verified]
  unfold groupMap
  simp only [whole]

/-- A block event that does not pass a verify leaves every VERIFIED block and makes none (R46). -/
theorem blockNext_verified_iff {e : BlockEvent} (he : e ≠ .verifyPass) (loading : Bool) (v : BlockState) :
    blockNext loading e v = .verified ↔ v = .verified := by
  cases loading <;> cases e <;> cases v <;> first | exact absurd rfl he | decide

theorem state_setState (r : SlotRecord) (b : Block) (v : BlockState) (k : Nat) :
    (r.setState b v).state k = if k = b.val then v else r.state k := by
  have length : r.blocks.toList.length = 256 := by simp
  have blocks : (r.setState b v).blocks.toList = r.blocks.toList.set b.val v := Vector.toList_set (h := b.isLt) ..
  unfold SlotRecord.state
  rw [blocks, List.getD_eq_getElem?_getD, List.getElem?_set, List.getD_eq_getElem?_getD]
  split
  · rename_i here
    rw [if_pos (by rw [length]; exact b.isLt), if_pos here.symm]
    rfl
  · rename_i other
    rw [if_neg (Ne.symm other)]

theorem state_block (r : SlotRecord) (b : Block) : r.state b.val = r.blocks[b] := by
  unfold SlotRecord.state
  rw [List.getD_eq_getElem?_getD, List.getElem?_eq_getElem (by simp)]
  simp

theorem groupMap_setState {r : SlotRecord} {b : Block} {v : BlockState}
    (verified : v = .verified ↔ r.blocks[b] = .verified) : groupMap (r.setState b v) = groupMap r := by
  refine groupMap_congr rfl fun k => ?_
  rw [state_setState]
  split
  · rename_i here
    rw [here, state_block]
    exact verified
  · rfl

/-- What a NOTICE shows of the staging slot: its key and its group map (R90). -/
theorem noticeContent_setSlot {r : SlotRecord} (key : r.key = (stagingRec s).key)
    (map : groupMap r = groupMap (stagingRec s)) : noticeContent (setSlot (stagingSlot s) r s) = noticeContent s := by
  unfold noticeContent announcedActive
  rw [activeRec_setSlot, stagingRec_setSlot, setSlot_stagingState, setSlot_activeState, setSlot_startUp, setSlot_line, key, map]

theorem noticeContent_blockEvent {e : BlockEvent} (he : e ≠ .verifyPass) (b : Block) (s : State) :
    noticeContent (blockEvent e b s) = noticeContent s :=
  noticeContent_setSlot rfl (groupMap_setState (blockNext_verified_iff he ..))

theorem stagingSlot_blockEvent (e : BlockEvent) (b : Block) (s : State) : stagingSlot (blockEvent e b s) = stagingSlot s :=
  stagingSlot_setSlot ..

/-! ## Steady operations -/

/-- This station's NOTICE reads as before, and no PROTECTED job has come into service (R25, R92). -/
structure Steady (s t : State) : Prop where
  content : noticeContent t = noticeContent s
  free : NotProtected s → NotProtected t

theorem Steady.refl (s : State) : Steady s s := ⟨rfl, id⟩

theorem Steady.trans (h : Steady s t) (k : Steady t u) : Steady s u :=
  ⟨k.content.trans h.content, k.free ∘ h.free⟩

/-- The parts that a NOTICE shows, and the service. -/
abbrev steadyParts : List Part := [.service, .slots, .activeState, .stagingState, .activeSlot, .straps, .link]

theorem Only.slots {ps : List Part} (h : Only ps s t) (off : ps.elem .slots = false) (x : Slot) : slotRec t x = slotRec s x := by
  obtain ⟨slotA, slotB⟩ := Prod.mk.inj (h.keep .slots off)
  cases x
  · exact slotA
  · exact slotB

theorem Only.stagingSlot {ps : List Part} (h : Only ps s t) (off : ps.elem .activeSlot = false) :
    stagingSlot t = stagingSlot s := congrArg Slot.other (h.keep .activeSlot off)

theorem Only.stagingRec {ps : List Part} (h : Only ps s t) (slots : ps.elem .slots = false)
    (active : ps.elem .activeSlot = false) : stagingRec t = stagingRec s := by
  unfold Machine.stagingRec
  rw [h.stagingSlot active, h.slots slots]

theorem Only.activeRec {ps : List Part} (h : Only ps s t) (slots : ps.elem .slots = false)
    (active : ps.elem .activeSlot = false) : activeRec t = activeRec s := by
  unfold Machine.activeRec
  rw [show t.cat.activeSlot = s.cat.activeSlot from h.keep .activeSlot active, h.slots slots]

theorem Only.steady {ps : List Part} (h : Only ps s t) (off : steadyParts.all (fun p => !ps.elem p) = true) : Steady s t := by
  have part (p : Part) (hp : p ∈ steadyParts) : ps.elem p = false := by
    simpa using List.all_eq_true.mp off p hp
  have slots := part .slots (by decide)
  have active := part .activeSlot (by decide)
  refine ⟨(noticeContent_congr (h.keep .activeState (part _ (by decide))) (by rw [h.activeRec slots active])
    (h.stagingRec slots active) (h.keep .stagingState (part _ (by decide))) (congrArg Straps.serve (h.keep .straps
    (part _ (by decide)))) (h.keep .link (part _ (by decide)))).symm, fun free v hv => ?_⟩
  have service : t.flash.service = s.flash.service := h.keep .service (part _ (by decide))
  exact free v (service ▸ hv)

theorem Steady.then {ps : List Part} (h : Steady a s) (k : Only ps s t)
    (off : steadyParts.all (fun p => !ps.elem p) = true) : Steady a t := h.trans (k.steady off)

theorem Steady.ite {c : Prop} [Decidable c] {x y : State} (hx : c → Steady s x) (hy : ¬ c → Steady s y) :
    Steady s (if c then x else y) := by
  split
  · exact hx ‹_›
  · exact hy ‹_›

/-- The end of a steady event adds nothing. -/
theorem Steady.settle (h : Steady s t) (hp : NotProtected s) : settle s t = t := settle_eq (h.free hp) h.content.symm

theorem steady_blockEvent (e : BlockEvent) (he : e ≠ .verifyPass) (b : Block) (s : State) : Steady s (blockEvent e b s) :=
  ⟨noticeContent_blockEvent he b s, fun free v hv => free v ((congrArg Sequencer.service (setSlot_flash ..)) ▸ hv)⟩

theorem steady_submit {q : Queue} {job : Job} (h : (takeJob s job).op ≠ .protectedReturn) : Steady s (submit q job s) :=
  ⟨(submit_only q job s).content.symm, fun free => free.submit h⟩

theorem takeJob_erase_staging (req : Requester) (b : Block) (s : State) :
    (takeJob s (.eraseUnit req (stagingSlot s) b)).op = .erase 0 :=
  if_neg (by simp [protects, stagingSlot_ne])

theorem takeJob_program_staging (req : Requester) (b : Block) (g : Seg) (d : List Byte) (s : State) :
    (takeJob s (.programSegment req (stagingSlot s) b g d)).op = .main :=
  if_neg (by simp [protects, stagingSlot_ne])

theorem steady_submitErase (i : Fin 4) (b : Block) (s : State) : Steady s (submitErase i b s) := by
  refine (steady_blockEvent .eraseSubmitted nofun b s).trans (steady_submit ?_)
  rw [← stagingSlot_blockEvent .eraseSubmitted b s, takeJob_erase_staging]
  exact nofun

theorem steady_orphanService (s : State) : Steady s (orphanService s) := by
  refine ⟨rfl, fun free v hv => ?_⟩
  obtain ⟨w, hw, rfl⟩ := Option.map_eq_some_iff.mp hv
  exact free w hw

theorem steady_submitAsk (i : Fin 4) (s : State) : Steady s (submitAsk i s) := (submitAsk_only i s).steady rfl

theorem steady_releaseCtx (i : Fin 4) (s : State) : Steady s (releaseCtx i s) := by
  unfold releaseCtx
  extract_lets c taken held t u
  have orphaned : Steady s (if taken then orphanService s else s) :=
    .ite (fun _ => steady_orphanService s) fun _ => .refl s
  have withdrawn : Steady s t := (orphaned.then (withdrawJobs_only ..) rfl).then (txGiveUp_only ..) rfl
  have cleared : Steady s u := withdrawn.then (setCtx_only ..) rfl
  exact cleared.then (only_pool _ _ u) rfl

theorem steady_deferBlock (i : Fin 4) (s : State) : Steady s (deferBlock i s) :=
  ((((steady_blockEvent .givenUp nofun _ s).trans (steady_releaseCtx i _)).then (only_deferral _ _) rfl).then (raise_only ..) rfl)

theorem steady_enterAsking (i : Fin 4) (s : State) : Steady s (enterAsking i s) :=
  .ite (fun _ => steady_deferBlock i s) fun _ => .ite
    (fun _ => ((setCtx_only ..).steady rfl).trans (steady_submitAsk i _)) fun _ => (setCtx_only ..).steady rfl

theorem steady_openOn (i : Fin 4) (b : Block) (s : State) : Steady s (openOn i b s) :=
  .ite (fun _ => ((setCtx_only ..).steady rfl).trans (steady_submitErase i b _)) fun _ =>
    ((setCtx_only ..).steady rfl).trans (steady_enterAsking i _)

theorem steady_openOne (s : State) : Steady s (openOne s) := by
  unfold openOne
  split
  · split
    · exact steady_openOn ..
    · exact .refl s
  · exact .refl s

/-- Held ASKs and openings are steady (R108, R112). -/
theorem steady_fetchFollow (s : State) : Steady s (fetchFollow s) := by
  have opened (s : State) : Steady s (openContexts s) :=
    (((steady_openOne s).trans (steady_openOne _)).trans (steady_openOne _)).trans (steady_openOne _)
  exact ((submitHeld_only s).steady rfl).trans (opened _)

theorem steady_programNext (i : Fin 4) (s : State) : Steady s (programNext i s) := by
  unfold programNext
  dsimp only
  split
  · exact .refl s
  · refine .ite (fun _ => ?_) fun _ => .refl s
    refine (((setCtx_only ..).steady rfl).trans (steady_blockEvent .programSubmitted nofun _ _)).trans (steady_submit ?_)
    have slot (c : Ctx) (b : Block) : stagingSlot s = stagingSlot (blockEvent .programSubmitted b (setCtx i c s)) :=
      (stagingSlot_blockEvent .programSubmitted b (setCtx i c s)).symm
    rw [slot { ctxOf s i with job := .program } (ctxOf s i).block, takeJob_program_staging]
    exact nofun

theorem steady_evaluate (i : Fin 4) (s : State) : Steady s (evaluate i s) :=
  .ite (fun _ => .ite (fun _ => (((setCtx_only ..).steady rfl).trans (steady_blockEvent .verifySubmitted nofun _ _)).trans (steady_submit nofun))
    fun _ => steady_enterAsking i s) fun _ => .refl s

theorem steady_fillBuffer (s : State) : Steady s (fillBuffer s) := by
  have cancelled (k : Key) (b : Block) : Steady s (cancelEntry k b s) := (cancelEntry_only ..).steady rfl
  unfold fillBuffer
  dsimp only
  split
  · refine .ite (fun _ => ?_) fun _ => .refl s
    split
    · exact .ite (fun _ => (((setBuf_only ..).steady rfl).then (updateEntry_only ..) rfl).trans (steady_submit nofun))
        fun _ => cancelled ..
    · exact cancelled ..
  · exact .refl s

theorem steady_serveAdvance (s : State) : Steady s (serveAdvance s) :=
  ((steady_fillBuffer s).trans (steady_fillBuffer _)).then (endServe_only _) rfl

/-! ## What joins the transmit queue -/

/-- The transmit queue holds what it held, and after that what has been submitted since. -/
def QueueGrows (s t : State) : Prop :=
  ∃ new, t.line.queue = s.line.queue ++ new ∧ ∀ x ∈ new, x.onLine = false ∧ x.attempts = 0

theorem QueueGrows.of_eq (h : t.line.queue = s.line.queue) : QueueGrows s t := ⟨[], by rw [h, List.append_nil], nofun⟩

theorem QueueGrows.refl (s : State) : QueueGrows s s := .of_eq rfl

theorem Only.queueGrows {ps : List Part} (h : Only ps s t) (off : ps.elem .queue = false) : QueueGrows s t :=
  .of_eq (h.keep .queue off)

theorem QueueGrows.trans (h : QueueGrows s t) (k : QueueGrows t u) : QueueGrows s u := by
  obtain ⟨new, queue, fresh⟩ := h
  obtain ⟨more, grown, fresher⟩ := k
  refine ⟨new ++ more, by rw [grown, queue, List.append_assoc], fun x hx => ?_⟩
  obtain hx | hx := List.mem_append.mp hx
  · exact fresh x hx
  · exact fresher x hx

theorem QueueGrows.ite {c : Prop} [Decidable c] {x y : State} (hx : c → QueueGrows s x) (hy : ¬ c → QueueGrows s y) :
    QueueGrows s (if c then x else y) := by
  split
  · exact hx ‹_›
  · exact hy ‹_›

/-- A frame other than a NOTICE joins the queue at its tail, or not at all (R77). -/
theorem queueGrows_txSubmit {f : Frame} (h : frameClass f ≠ 4) (o : Owner) (s : State) : QueueGrows s (txSubmit f o s) := by
  refine .ite (fun _ => ⟨[{ frame := f, owner := o, attempts := 0, onLine := false, live := true }], ?_, ?_⟩) fun _ => .refl s
  · change txQueued s.line.queue f o = _
    unfold txQueued
    rw [if_neg h]
  · intro x hx
    obtain rfl := List.mem_singleton.mp hx
    exact ⟨rfl, rfl⟩

theorem queueGrows_submitAsk (i : Fin 4) (s : State) : QueueGrows s (submitAsk i s) := by
  refine .ite (fun _ => ?_) fun _ => (setCtx_only ..).queueGrows rfl
  have submitted := queueGrows_txSubmit (f := .ask (askTarget s (ctxOf s i)) (ctxOf s i).key (ctxOf s i).block
    (ctxOf s i).wanted) nofun (.fetch i) s
  exact submitted.trans ((setCtx_only ..).queueGrows rfl)

theorem queueGrows_submitHeld (s : State) : QueueGrows s (submitHeld s) := by
  unfold submitHeld
  generalize ctxIds = l
  induction l generalizing s with
  | nil => exact .refl s
  | cons j js ih => exact QueueGrows.trans (.ite (fun _ => queueGrows_submitAsk j s) fun _ => .refl s) (ih _)

theorem queueGrows_enterAsking (h : (ctxOf s i).tries < 5) : QueueGrows s (enterAsking i s) :=
  .ite (fun full => absurd h (Nat.not_lt.mpr full)) fun _ => .ite
    (fun _ => ((setCtx_only ..).queueGrows rfl).trans (queueGrows_submitAsk i _)) fun _ => (setCtx_only ..).queueGrows rfl

theorem queueGrows_openOne (s : State) : QueueGrows s (openOne s) := by
  unfold openOne
  split
  · split
    · rename_i i b _ _
      refine .ite (fun _ => ((setCtx_only ..).next (submitErase_only i b _) rfl rfl
        (ps := [.fetch, .ctxs, .cat, .slots, .flash, .jobs, .service])).queueGrows rfl) fun _ => ?_
      exact ((setCtx_only ..).queueGrows rfl).trans (queueGrows_enterAsking (by rw [setCtx_get]; exact Nat.succ_pos 4))
    · exact .refl s
  · exact .refl s

/-- Held ASKs and the ASKs of contexts opened join the queue at its tail (R108, R112). -/
theorem queueGrows_fetchFollow (s : State) : QueueGrows s (fetchFollow s) :=
  (queueGrows_submitHeld s).trans ((((queueGrows_openOne _).trans (queueGrows_openOne _)).trans (queueGrows_openOne _)).trans
    (queueGrows_openOne _))

theorem queueGrows_offerNext (s : State) : QueueGrows s (offerNext s) := by
  unfold offerNext
  split
  · exact .refl s
  · exact .ite (fun _ => .refl s) fun _ => .ite (fun _ => (queueGrows_txSubmit (f := .offer ..) nofun .serveOffer s).trans
      ((setServeQueue_only ..).queueGrows rfl)) fun _ => .refl s

/-! ## The context whose ASK stays in the queue -/

theorem ctxOf_submitAsk_of_ne (h : i ≠ j) (s : State) : ctxOf (submitAsk j s) i = ctxOf s i := by
  unfold submitAsk
  dsimp only
  split
  · exact (ctxOf_setCtx_of_ne h ..).trans ((txSubmit_only ..).ctx rfl i)
  · exact ctxOf_setCtx_of_ne h ..

theorem ctxOf_enterAsking_of_ne (h : i ≠ j) (untried : (ctxOf s j).tries < 5) : ctxOf (enterAsking j s) i = ctxOf s i := by
  rw [enterAsking_of_tries untried]
  split
  · exact (ctxOf_submitAsk_of_ne h _).trans (ctxOf_setCtx_of_ne h ..)
  · exact ctxOf_setCtx_of_ne h ..

/-- A context waits for nothing to submit its ASK: it is not in ASKING, or its ASK is queued (R112). -/
def AskSettled (c : Ctx) : Prop := c.state = .asking → c.askQueued = true

theorem ctxOf_submitHeld (h : AskSettled (ctxOf s i)) : ctxOf (submitHeld s) i = ctxOf s i := by
  unfold submitHeld
  generalize ctxIds = l
  induction l generalizing s with
  | nil => rfl
  | cons j js ih =>
    have step : ctxOf (if (ctxOf s j).state = .asking && !(ctxOf s j).askQueued && mayAsk s then submitAsk j s else s) i =
        ctxOf s i := by
      split
      · rename_i unasked
        simp only [Bool.and_eq_true, decide_eq_true_eq, Bool.not_eq_true'] at unasked
        obtain ⟨⟨asking, held⟩, _⟩ := unasked
        have other : i ≠ j := by
          rintro rfl
          exact Bool.noConfusion (held.symm.trans (h asking))
        exact ctxOf_submitAsk_of_ne other s
      · rfl
    rw [List.foldl_cons, ih (by rwa [step]), step]

theorem ctxOf_openOne (open_ : (ctxOf s i).state ≠ .idle) : ctxOf (openOne s) i = ctxOf s i := by
  unfold openOne
  split
  · split
    · rename_i j b idle _
      have other : i ≠ j := by
        rintro rfl
        exact open_ (idleCtx_state idle)
      unfold openOn
      extract_lets c
      split
      · exact (submitErase_ctx ..).trans (ctxOf_setCtx_of_ne other ..)
      · exact (ctxOf_enterAsking_of_ne other (by rw [setCtx_get]; exact Nat.succ_pos 4)).trans (ctxOf_setCtx_of_ne other ..)
    · rfl
  · rfl

/-- What follows in the fetch engine leaves an open context with its ASK in the queue, or in no need of one, as it is. -/
theorem ctxOf_fetchFollow (open_ : (ctxOf s i).state ≠ .idle) (h : AskSettled (ctxOf s i)) :
    ctxOf (fetchFollow s) i = ctxOf s i := by
  have again {t : State} (same : ctxOf t i = ctxOf s i) : ctxOf (openOne t) i = ctxOf s i :=
    (ctxOf_openOne (by rwa [same])).trans same
  unfold fetchFollow openContexts
  exact again (again (again (again (ctxOf_submitHeld h))))

end Sys2Proof.Machine
end

section
/-! SUPPORT. SENDING: the choice at an idle, lost contentions and the ends of attempts (R73, R76 to R78, R83, R86). -/

namespace Sys2Proof.Machine

variable {s t : State} {i : Fin 4} {before after : List TxEntry} {e : TxEntry}

/-! ## The choice at an idle -/

/-- The classes that the link lets be sent, of those in the queue. -/
def classAllowed (s : State) (c : Nat) : Bool := s.line.queue.any (fun e => frameClass e.frame = c && linkAllows s.line.link e)

theorem chosenClass_of_none (h : ∀ c, classAllowed s c = false) : chosenClass s = none :=
  List.find?_eq_none.mpr fun c _ => by
    have none : (s.line.queue.any fun e => frameClass e.frame = c && linkAllows s.line.link e) = false := h c
    rw [none]
    exact Bool.false_ne_true

/-- The lowest class allowed is chosen (R78). -/
theorem chosenClass_of_lowest {c : Nat} (range : c ≤ 4) (here : classAllowed s c = true)
    (lower : ∀ d < c, classAllowed s d = false) : chosenClass s = some c := by
  have find : chosenClass s = [0, 1, 2, 3, 4].find? (classAllowed s) := rfl
  rw [find]
  obtain rfl | rfl | rfl | rfl | rfl : c = 0 ∨ c = 1 ∨ c = 2 ∨ c = 3 ∨ c = 4 := by omega
  all_goals simp [List.find?, here, lower]

/-- The first entry of a class goes on the line (R78). -/
theorem putOnLine_first (h : ∀ x ∈ before, frameClass x.frame ≠ frameClass e.frame) :
    putOnLine (frameClass e.frame) (before ++ e :: after) = before ++ { e with onLine := true } :: after := by
  induction before with
  | nil => exact if_pos rfl
  | cons x xs ih =>
    rw [List.cons_append, putOnLine, if_neg (h x List.mem_cons_self), ih fun y hy => h y (List.mem_cons_of_mem _ hy)]
    rfl

theorem exec_lineIdle (on : s.line.link ≠ .offline) (free : onLineEntry s = none) :
    exec .lineIdle s = .next (lineIdleChoice s) := by
  change execLineIdle s = _
  unfold execLineIdle
  rw [if_neg on, free]
  rfl

/-- Settles O30, by the class that the choice finds. -/
theorem lineIdleChooses : Obligations.LineIdleChooses := by
  unfold Obligations.LineIdleChooses
  refine fun s on free => ⟨fun none => ?_, fun before after e queue allowed lowest first => ?_⟩
  · have nothing : chosenClass s = .none := chosenClass_of_none fun c => List.any_eq_false.mpr fun x hx => by
      simp [none x hx]
    rw [exec_lineIdle on free]
    unfold lineIdleChoice
    rw [nothing]
  · have here : classAllowed s (frameClass e.frame) = true :=
      List.any_eq_true.mpr ⟨e, by rw [queue]; simp, by simp [allowed]⟩
    have lower : ∀ d < frameClass e.frame, classAllowed s d = false := by
      intro d hd
      refine List.any_eq_false.mpr fun x hx sent => ?_
      obtain ⟨cls, mayGo⟩ := Bool.and_eq_true_iff.mp sent
      have least := lowest x hx mayGo
      rw [of_decide_eq_true cls] at least
      exact Nat.not_le.mpr hd least
    rw [exec_lineIdle on free]
    unfold lineIdleChoice
    rw [chosenClass_of_lowest (frameClass_le _) here lower, queue]
    dsimp only
    rw [putOnLine_first first]

/-! ## The entry on the line -/

/-- The entry on the line stands among others that are not (R73). -/
structure OnLineAmong (s : State) (before after : List TxEntry) (e : TxEntry) : Prop where
  queue : s.line.queue = before ++ e :: after
  onLine : e.onLine = true
  others : ∀ x ∈ before ++ after, x.onLine = false

theorem OnLineAmong.entry (h : OnLineAmong s before after e) : onLineEntry s = some e := by
  have skipped : before.find? (·.onLine) = none :=
    List.find?_eq_none.mpr fun x hx => by simp [h.others x (List.mem_append_left after hx)]
  unfold onLineEntry
  rw [h.queue, List.find?_append, skipped, List.find?_cons_of_pos h.onLine]
  rfl

/-- A change of the entry on the line alone. -/
theorem OnLineAmong.map (h : OnLineAmong s before after e) {f : TxEntry → TxEntry} (rest : ∀ x, x.onLine = false → f x = x) :
    s.line.queue.map f = before ++ f e :: after := by
  have same {l : List TxEntry} (hl : ∀ x ∈ l, x.onLine = false) : l.map f = l :=
    (List.map_congr_left fun x hx => rest x (hl x hx)).trans (List.map_id l)
  rw [h.queue, List.map_append, List.map_cons, same fun x hx => h.others x (List.mem_append_left after hx),
    same fun x hx => h.others x (List.mem_append_right before hx)]

/-- The entry on the line taken out of the queue. -/
theorem OnLineAmong.filter (h : OnLineAmong s before after e) :
    s.line.queue.filter (fun x => !x.onLine) = before ++ after := by
  have all {l : List TxEntry} (hl : ∀ x ∈ l, x.onLine = false) : l.filter (fun x => !x.onLine) = l :=
    List.filter_eq_self.mpr fun x hx => by simp [hl x hx]
  rw [h.queue, List.filter_append, List.filter_cons_of_neg (by simp [h.onLine]),
    all fun x hx => h.others x (List.mem_append_left after hx), all fun x hx => h.others x (List.mem_append_right before hx)]

theorem exec_contentionLost (h : OnLineAmong s before after e) : exec .contentionLost s = .next (loseContention e s) := by
  change execContentionLost s = _
  unfold execContentionLost
  rw [h.entry]
  rfl

theorem exec_attemptEnd (h : OnLineAmong s before after e) (echoed : Bool) :
    exec (.attemptEnd echoed) s = .next (settle s (endAttempt echoed e s)) := by
  change execAttemptEnd echoed s = _
  unfold execAttemptEnd
  rw [h.entry]
  rfl

/-- An abort ends the attempt as one without echo (R74). -/
theorem exec_bitError (h : OnLineAmong s before after e) : exec .bitError s = .next (settle s (endAttempt false e s)) := by
  change execBitError s = _
  unfold execBitError
  rw [h.entry]
  rfl

/-! ## The serve engine with no segment left to read -/

/-- The SENDING entry, where there is one, has no segment left to read (R146). -/
def ServeDone (s : State) : Prop := 16 ≤ (sendingEntry s).elim 16 ServeEntry.nextIndex

theorem fillBuffer_of_done (h : ServeDone s) : fillBuffer s = s := by
  unfold ServeDone at h
  unfold fillBuffer
  dsimp only
  split
  · rename_i f i sending _
    rw [sending] at h
    exact if_neg (Nat.not_lt.mpr h)
  · rfl

theorem serveAdvance_of_done (h : ServeDone s) : serveAdvance s = endServe s := by
  unfold serveAdvance
  rw [fillBuffer_of_done h, fillBuffer_of_done h]

theorem offerNext_line (s : State) : ∃ new, (offerNext s).line.queue = s.line.queue ++ new ∧
    ∀ x ∈ new, x.owner = .serveOffer ∧ x.onLine = false := by
  unfold offerNext
  split
  · exact ⟨[], (List.append_nil _).symm, nofun⟩
  · split
    · exact ⟨[], (List.append_nil _).symm, nofun⟩
    · split
      · rename_i accepted
        unfold txSubmit
        rw [if_pos accepted]
        exact ⟨[_], rfl, fun x hx => by
          obtain rfl := List.mem_singleton.mp hx
          exact ⟨rfl, rfl⟩⟩
      · exact ⟨[], (List.append_nil _).symm, nofun⟩

theorem endServe_line (s : State) : ∃ new, (endServe s).line.queue = s.line.queue ++ new ∧
    ∀ x ∈ new, x.owner = .serveOffer ∧ x.onLine = false := by
  unfold endServe
  split
  · exact ⟨[], (List.append_nil _).symm, nofun⟩
  · split
    · exact offerNext_line _
    · exact ⟨[], (List.append_nil _).symm, nofun⟩

theorem Only.buf {ps : List Part} (h : Only ps s t) (off : ps.elem .bufs = false) (i : OutBufId) : bufOf t i = bufOf s i := by
  obtain ⟨ob0, ob1⟩ := Prod.mk.inj (h.keep .bufs off)
  cases i
  · exact ob0
  · exact ob1

theorem Only.servedCount {ps : List Part} (h : Only ps s t) (off : ps.elem .served = false) : t.serve.served = s.serve.served :=
  (Prod.mk.inj (h.keep .served off)).1

theorem Only.unechoed {ps : List Part} (h : Only ps s t) (off : ps.elem .counts = false) : t.line.unechoed = s.line.unechoed := by
  obtain ⟨_, rest⟩ := Prod.mk.inj (h.keep .counts off)
  exact (Prod.mk.inj rest).1

theorem Only.framesSent {ps : List Part} (h : Only ps s t) (off : ps.elem .counts = false) :
    t.line.framesSent = s.line.framesSent := (Prod.mk.inj (h.keep .counts off)).1

/-! ## Lost contention -/

theorem loseContention_live (h : OnLineAmong s before after e) (live : e.live = true) :
    loseContention e s = { s with line := { s.line with
      idleCount := 0, queue := before ++ { e with onLine := false } :: after } } := by
  unfold loseContention
  rw [if_neg (by simp [givenUp, live]), h.map (f := fun x => { x with onLine := false }) fun x hx => by rw [← hx]]
  rfl

/-- A SEGMENT that has been given up leaves the queue as it loses contention, and frees its buffer (R147, R148). -/
theorem loseContention_givenUp (h : OnLineAmong s before after e) (dead : e.live = false) {i : OutBufId}
    (owner : e.owner = .serveBuffer i) (done : ServeDone s) :
    loseContention e s = endServe (setBuf i .free (lineLeft (before ++ after) s)) := by
  have given : givenUp e = true := by simp [givenUp, dead, owner]
  have done : ServeDone (setBuf i .free (lineLeft (before ++ after) s)) := by cases i <;> exact done
  unfold loseContention
  rw [if_pos given, h.filter]
  unfold givenUpReport
  simp only [owner]
  exact serveAdvance_of_done done

/-! ## The end of an attempt -/

/-- What follows the end of an attempt in the block that submitted its entry (R93, R112). -/
def afterAttempt (o : Owner) (t : State) : State :=
  match o with
  | .noticeUnit => submitOwed t
  | .fetch _ => fetchFollow t
  | _ => t

/-- The line as an entry with attempts left stays in its place (R76). -/
def attemptKept (before after : List TxEntry) (e : TxEntry) (s : State) : State :=
  { s with line := { s.line with
    idleCount := 0, queue := before ++ { e with onLine := false, attempts := e.attempts + 1 } :: after,
    unechoed := count16 s.line.unechoed, echoMiss := s.line.echoMiss + 1 } }

/-- The line as an entry that an attempt has decided is gone from the queue (R76). -/
def attemptGone (echoed : Bool) (before after : List TxEntry) (s : State) : State :=
  lineLeft (before ++ after) { s with line := countAttempt echoed s.line }

theorem missedOut_of_few (h : s.line.echoMiss ≠ 16) : missedOut s = s :=
  if_neg (by simp [h])

/-- An attempt without echo that leaves its entry attempts, before the other blocks act (R76, R83). -/
theorem endAttempt_kept (h : OnLineAmong s before after e) (live : e.live = true) (left : e.attempts < 2)
    (sends : linkSends s.line.link = true) (few : s.line.echoMiss < 15) :
    endAttempt false e s = afterAttempt e.owner (attemptKept before after e s) := by
  have undecided : attemptDecides false s.line.link e = false := by
    unfold attemptDecides
    simp [sends, left]
  have alive : givenUp e = false := by simp [givenUp, live]
  have stays : lineLeft (queueAfterAttempt false s.line.queue) { s with line := countAttempt false s.line } =
      attemptKept before after e s := by
    have queue : queueAfterAttempt false s.line.queue = before ++ { e with onLine := false, attempts := e.attempts + 1 } :: after :=
      (h.map (f := fun x => if x.onLine then { x with onLine := false, attempts := x.attempts + 1 } else x)
        fun x hx => if_neg (by simp [hx])).trans (by simp [h.onLine])
    have count : min 16 (s.line.echoMiss + 1) = s.line.echoMiss + 1 := Nat.min_eq_right (by omega)
    unfold lineLeft countAttempt attemptKept
    simp [queue, sends, count]
  have goesOn : missedOut (attemptKept before after e s) = attemptKept before after e s :=
    missedOut_of_few (show s.line.echoMiss + 1 ≠ 16 by omega)
  unfold endAttempt
  simp only [undecided, alive, Bool.or_self, stays, goesOn, Bool.false_eq_true, if_false]
  rfl

/-- An attempt that decides its entry below the sixteenth miss, before the other blocks act (R76). -/
theorem endAttempt_decided (h : OnLineAmong s before after e) {echoed : Bool} (sends : linkSends s.line.link = true)
    (decides : echoed = true ∨ e.attempts = 2 ∧ s.line.echoMiss < 15) :
    endAttempt echoed e s = afterAttempt e.owner (attemptReport echoed e (attemptGone echoed before after s)) := by
  have decided : attemptDecides echoed s.line.link e = true := by
    unfold attemptDecides
    obtain rfl | ⟨attempts, _⟩ := decides
    · rfl
    · simp [attempts]
  have gone : lineLeft (queueAfterAttempt true s.line.queue) { s with line := countAttempt echoed s.line } =
      attemptGone echoed before after s := by
    have queue : queueAfterAttempt true s.line.queue = before ++ after := h.filter
    rw [queue]
    rfl
  have goesOn : missedOut (attemptGone echoed before after s) = attemptGone echoed before after s := by
    refine missedOut_of_few ?_
    unfold attemptGone lineLeft countAttempt
    obtain rfl | ⟨_, few⟩ := decides
    · simp [sends]
    · cases echoed
      · simp only [sends, Bool.false_eq_true, if_false, if_true]
        omega
      · simp [sends]
  unfold endAttempt
  simp only [decided, Bool.true_or, gone, goesOn, if_true]
  rfl

theorem attemptGone_eq {echoed : Bool} (sends : linkSends s.line.link = true) (few : echoed = true ∨ s.line.echoMiss < 15) :
    attemptGone echoed before after s = { s with line := { s.line with
      idleCount := 0, queue := before ++ after,
      framesSent := if echoed then count16 s.line.framesSent else s.line.framesSent,
      unechoed := if echoed then s.line.unechoed else count16 s.line.unechoed,
      echoMiss := if echoed then 0 else s.line.echoMiss + 1 } } := by
  unfold attemptGone lineLeft countAttempt
  cases echoed
  · have few : s.line.echoMiss < 15 := few.resolve_left Bool.false_ne_true
    have count : min 16 (s.line.echoMiss + 1) = s.line.echoMiss + 1 := Nat.min_eq_right (by omega)
    simp [sends, count]
  · simp [sends]

theorem steady_attemptKept (before after : List TxEntry) (e : TxEntry) (s : State) : Steady s (attemptKept before after e s) :=
  ⟨rfl, id⟩

theorem steady_attemptGone (echoed : Bool) (before after : List TxEntry) (s : State) :
    Steady s (attemptGone echoed before after s) := by
  cases echoed <;> exact ⟨rfl, id⟩

/-- Settles O31: a lost contention by whether its entry is live, an attempt without echo by who waits for its entry. -/
theorem failedSendKeepsEntry : Obligations.FailedSendKeepsEntry := by
  unfold Obligations.FailedSendKeepsEntry
  intro s before after e queue onLine others
  have h : OnLineAmong s before after e := ⟨queue, onLine, others⟩
  refine ⟨fun live _ => ?_, fun i dead owner done => ?_, fun live left sends few hp c hc => ⟨fun other => ?_,
    fun i owner asking queued => ?_⟩⟩
  · rw [exec_contentionLost h, loseContention_live h live]
  · let freed : State := setBuf i .free (lineLeft (before ++ after) s)
    have run := exec_contentionLost h
    rw [loseContention_givenUp h dead owner done] at run
    have ends := endServe_only freed
    refine ⟨_, run, (ends.buf rfl i).trans (setBuf_get ..), ?_, ?_, ?_, ?_⟩
    · exact (ends.servedCount rfl).trans ((setBuf_only ..).servedCount rfl)
    · obtain ⟨new, grown, fresh⟩ := endServe_line freed
      refine ⟨new, ?_, fresh⟩
      rw [grown, setBuf_line]
      rfl
    · rw [ends.unechoed rfl, setBuf_line]
      rfl
    · rw [ends.echoMiss rfl, setBuf_line]
      rfl
  all_goals
    have run : exec c s = .next (settle s (endAttempt false e s)) := by
      obtain rfl | rfl := hc
      · exact exec_bitError h
      · exact exec_attemptEnd h false
    rw [endAttempt_kept h live left sends few] at run
    have kept := steady_attemptKept before after e s
  · have alone : afterAttempt e.owner (attemptKept before after e s) = attemptKept before after e s := by
      cases owner : e.owner with
      | fetch i =>
        rw [owner] at other
        exact other.elim
      | noticeUnit =>
        rw [owner] at other
        exact if_neg (by rw [show (attemptKept before after e s).notice.owed = false from other]; exact Bool.false_ne_true)
      | catalogue | serveOffer | serveBuffer _ => rfl
    rw [run, alone, kept.settle hp]
    rfl
  · have follows : afterAttempt e.owner (attemptKept before after e s) = fetchFollow (attemptKept before after e s) := by
      rw [owner]
      rfl
    rw [follows, (kept.trans (steady_fetchFollow _)).settle hp] at run
    have follow := fetchFollow_only (attemptKept before after e s)
    refine ⟨_, run, queueGrows_fetchFollow (attemptKept before after e s), follow.unechoed rfl, follow.echoMiss rfl, ?_⟩
    have open_ : (ctxOf s i).state ≠ .idle := by rw [asking]; exact nofun
    exact ctxOf_fetchFollow (s := attemptKept before after e s) open_ fun _ => queued

/-! ## The first echoed NOTICE -/

/-- The transmit queue holds the entries of a list, and after them only what has been submitted since. -/
def QueueFrom (q : List TxEntry) (t : State) : Prop :=
  ∃ new, t.line.queue = q ++ new ∧ ∀ x ∈ new, x.onLine = false ∧ x.attempts = 0

variable {q : List TxEntry}

theorem QueueFrom.grows (h : QueueFrom q s) (k : QueueGrows s t) : QueueFrom q t := by
  obtain ⟨new, queue, fresh⟩ := h
  obtain ⟨more, grown, fresher⟩ := k
  refine ⟨new ++ more, by rw [grown, queue, List.append_assoc], fun x hx => ?_⟩
  obtain hx | hx := List.mem_append.mp hx
  · exact fresh x hx
  · exact fresher x hx

/-- A NOTICE takes the place of a queued one only (R79), so that the other entries stay. -/
theorem QueueFrom.submitNotice (h : QueueFrom q s) (hq : ∀ x ∈ q, frameClass x.frame ≠ 4) : QueueFrom q (submitNotice s) := by
  obtain ⟨new, queue, fresh⟩ := h
  cases answer : txAnswer s.line (.notice (noticeContent s)) with
  | accepted =>
    rw [submitNotice_accepted answer]
    let notice : TxEntry :=
      { frame := .notice (noticeContent s), owner := .noticeUnit, attempts := 0, onLine := false, live := true }
    refine ⟨new.filter (fun x => frameClass x.frame ≠ 4) ++ [notice], ?_, fun x hx => ?_⟩
    · change withNotice s = _
      unfold withNotice
      rw [queue, List.filter_append, List.append_assoc]
      refine congrArg (· ++ _) (List.filter_eq_self.mpr fun x hx => ?_)
      exact decide_eq_true (hq x hx)
    · obtain hx | hx := List.mem_append.mp hx
      · exact fresh x (List.mem_of_mem_filter hx)
      · obtain rfl := List.mem_singleton.mp hx
        exact ⟨rfl, rfl⟩
  | full => rw [submitNotice_full answer]; exact ⟨new, queue, fresh⟩
  | noLink => rw [submitNotice_noLink answer]; exact ⟨new, queue, fresh⟩

theorem QueueFrom.submitOwed (h : QueueFrom q s) (hq : ∀ x ∈ q, frameClass x.frame ≠ 4) : QueueFrom q (submitOwed s) := by
  unfold Machine.submitOwed
  split
  · exact h.submitNotice hq
  · exact h

theorem QueueFrom.noticeWatch (h : QueueFrom q s) (hq : ∀ x ∈ q, frameClass x.frame ≠ 4) (before : State) :
    QueueFrom q (noticeWatch before s) := by
  unfold Machine.noticeWatch
  split
  · exact h
  · unfold noticeChanged
    split
    · exact h
    · split
      · split
        · exact h
        · exact h.submitNotice hq
      · exact h
    · exact h

/-- The link as it enters ACTIVE, before the fetch engine goes on (R86). -/
def activeBegun (s : State) : State :=
  { setLink .active s with
    line := { (setLink .active s).line with joinLeft := none }
    notice := { (setLink .active s).notice with
      periodicLeft := some (2000 - (setLink .active s).notice.spacing.getD 0) } }

theorem enterActive_eq (s : State) : enterActive s = fetchFollow (activeBegun s) := rfl

/-- The part after the first echoed NOTICE: ACTIVE, then an owed NOTICE, then the notice unit's watch (R86, R92, R93). -/
def joinedBy (before gone : State) : State := noticeWatch before (submitOwed (fetchFollow (activeBegun gone)))

theorem joinedBy_link (b g : State) : (joinedBy b g).line.link = .active := by
  unfold joinedBy
  rw [(noticeWatch_only b _).link rfl, (submitOwed_only _).link rfl, (fetchFollow_only _).link rfl]
  rfl

theorem joinedBy_joinLeft (b g : State) : (joinedBy b g).line.joinLeft = none := by
  unfold joinedBy
  rw [(noticeWatch_only b _).joinLeft rfl, (submitOwed_only _).joinLeft rfl, (fetchFollow_only _).joinLeft rfl]
  rfl

theorem joinedBy_echoMiss (b g : State) : (joinedBy b g).line.echoMiss = g.line.echoMiss := by
  unfold joinedBy
  rw [(noticeWatch_only b _).echoMiss rfl, (submitOwed_only _).echoMiss rfl, (fetchFollow_only _).echoMiss rfl]
  rfl

theorem joinedBy_framesSent (b g : State) : (joinedBy b g).line.framesSent = g.line.framesSent := by
  unfold joinedBy
  rw [(noticeWatch_only b _).framesSent rfl, (submitOwed_only _).framesSent rfl, (fetchFollow_only _).framesSent rfl]
  rfl

theorem joinedBy_events (b g : State) :
    (joinedBy b g).port.events = raiseIn .linkChange (byteDetail 2) g.port.events := by
  unfold joinedBy
  rw [(noticeWatch_only b _).events rfl, (submitOwed_only _).events rfl, (fetchFollow_only _).events rfl]
  rfl

theorem joinedBy_queue (b : State) {g : State} (plain : ∀ x ∈ g.line.queue, frameClass x.frame ≠ 4) :
    QueueFrom g.line.queue (joinedBy b g) := by
  have start : QueueFrom g.line.queue (activeBegun g) := ⟨[], (List.append_nil _).symm, nofun⟩
  exact ((start.grows (queueGrows_fetchFollow _)).submitOwed plain).noticeWatch plain b

/-- The event in which the first echoed NOTICE joins the station. -/
theorem settle_joined {g : State} (free : NotProtected g) (b : State) :
    settle b (submitOwed (fetchFollow (activeBegun g))) = joinedBy b g := by
  have begun : NotProtected (activeBegun g) := free
  have followed := (steady_fetchFollow (activeBegun g)).free begun
  exact settle_of_notProtected ((submitOwed_only (fetchFollow (activeBegun g))).free rfl followed) b

/-- Settles O33: the report of the echo takes the link to ACTIVE, and what is submitted after it leaves the other entries. -/
theorem echoedNoticeJoins : Obligations.EchoedNoticeJoins := by
  unfold Obligations.EchoedNoticeJoins
  intro s before after e queue onLine others owner joining hp
  have h : OnLineAmong s before after e := ⟨queue, onLine, fun x hx => (others x hx).1⟩
  have sends : linkSends s.line.link = true := by rw [joining]; rfl
  have report : attemptReport true e (attemptGone true before after s) =
      fetchFollow (activeBegun (attemptGone true before after s)) := by
    unfold attemptReport
    rw [owner]
    exact if_pos (by simp [attemptGone, lineLeft, countAttempt, joining])
  have run := exec_attemptEnd h true
  have free : NotProtected (attemptGone true before after s) := (steady_attemptGone true before after s).free hp
  rw [endAttempt_decided h sends (.inl rfl), report, owner] at run
  have run := run.trans (congrArg Host.Outcome.next (settle_joined free s))
  have gone := attemptGone_eq (before := before) (after := after) sends (.inl rfl)
  refine ⟨_, run, joinedBy_link .., joinedBy_joinLeft .., (joinedBy_echoMiss ..).trans ?_, (joinedBy_framesSent ..).trans ?_,
    ?_, joinedBy_events ..⟩
  · rw [gone]
    rfl
  · rw [gone]
    rfl
  · exact joinedBy_queue s (g := attemptGone true before after s) fun x hx => (others x hx).2


end Sys2Proof.Machine
end

section
/-! SUPPORT. A LINK THAT SENDS NOTHING: what LISTEN-ONLY and CLASH do to the other blocks (R81, R83, R87 to R89, R94, R149). -/

namespace Sys2Proof.Machine

variable {s t u : State} {before after : List TxEntry} {e : TxEntry}

/-! ## A mute link -/

/-- The link state accepts no submission (R77). -/
abbrev Mute (s : State) : Prop := linkSends s.line.link = false

theorem txAnswer_mute (mute : Mute s) (f : Frame) : txAnswer s.line f = .noLink := if_pos (by simp [mute])

theorem txSubmit_mute (mute : Mute s) (f : Frame) (o : Owner) : txSubmit f o s = s :=
  if_neg (by rw [txAnswer_mute mute]; exact nofun)

theorem offerNext_mute (mute : Mute s) : offerNext s = s := by
  unfold offerNext
  split
  · rfl
  · split
    · rfl
    · exact if_neg (by rw [txAnswer_mute mute]; exact nofun)

theorem submitNotice_mute (mute : Mute s) : submitNotice s = s := submitNotice_noLink (txAnswer_mute mute _)

theorem submitOwed_mute (mute : Mute s) : submitOwed s = s := by
  unfold submitOwed
  rw [submitNotice_mute mute]
  exact ite_self s

theorem noticeWatch_mute (mute : Mute s) (b : State) : noticeWatch b s = s := by
  unfold noticeWatch noticeChanged
  split
  · rfl
  · unfold Mute at mute
    split <;> rename_i link
    · rw [link] at mute
      exact absurd mute (by decide)
    · rw [link] at mute
      exact absurd mute (by decide)
    · rfl

theorem mayAsk_mute (mute : Mute s) : mayAsk s = false := by
  unfold mayAsk
  rw [mute, Bool.and_false]

theorem openOne_mute (mute : Mute s) : openOne s = s := if_neg (by rw [mayAsk_mute mute]; exact Bool.false_ne_true)

theorem fetchFollow_mute (mute : Mute s) : fetchFollow s = s := by
  have held : submitHeld s = s := by
    unfold submitHeld
    generalize ctxIds = l
    induction l with
    | nil => rfl
    | cons i is ih =>
      rw [List.foldl_cons, if_neg (by rw [mayAsk_mute mute, Bool.and_false]; exact Bool.false_ne_true)]
      exact ih
  unfold fetchFollow openContexts
  rw [held, openOne_mute mute, openOne_mute mute, openOne_mute mute, openOne_mute mute]

/-- With the link mute, the end of an event without PROTECTED job adds nothing. -/
theorem settle_mute (free : NotProtected t) (mute : Mute t) (b : State) : settle b t = t := by
  rw [settle_of_notProtected free, noticeWatch_mute mute]

/-! ## A queue that only shrinks -/

/-- Every entry in the transmit queue was in it, on the line or not as it is now. -/
structure QueueShrinks (s t : State) : Prop where
  from_ : ∀ x ∈ t.line.queue, ∃ y ∈ s.line.queue, x.onLine = y.onLine

theorem QueueShrinks.of_eq (h : t.line.queue = s.line.queue) : QueueShrinks s t :=
  ⟨fun x hx => ⟨x, h ▸ hx, rfl⟩⟩

theorem QueueShrinks.trans (h : QueueShrinks s t) (k : QueueShrinks t u) : QueueShrinks s u := by
  refine ⟨fun x hx => ?_⟩
  obtain ⟨y, hy, xy⟩ := k.from_ x hx
  obtain ⟨z, hz, yz⟩ := h.from_ y hy
  exact ⟨z, hz, xy.trans yz⟩

theorem Only.queueShrinks {ps : List Part} (h : Only ps s t) (off : ps.elem .queue = false) : QueueShrinks s t :=
  .of_eq (h.queue off)

theorem queueShrinks_txWithdraw (p : TxEntry → Bool) (s : State) : QueueShrinks s (txWithdraw p s) :=
  ⟨fun x hx => ⟨x, List.mem_of_mem_filter hx, rfl⟩⟩

theorem queueShrinks_txGiveUp (p : TxEntry → Bool) (s : State) : QueueShrinks s (txGiveUp p s) := by
  refine ⟨fun x hx => ?_⟩
  obtain ⟨y, hy, rfl⟩ := List.mem_map.mp hx
  refine ⟨y, List.mem_of_mem_filter hy, ?_⟩
  split <;> rfl

theorem QueueShrinks.ite {c : Prop} [Decidable c] {x y : State} (hx : c → QueueShrinks s x) (hy : ¬ c → QueueShrinks s y) :
    QueueShrinks s (if c then x else y) := by
  split
  · exact hx ‹_›
  · exact hy ‹_›

theorem queueShrinks_cancelBuffer (k : Key) (b : Block) (i : OutBufId) (s : State) :
    QueueShrinks s (cancelBuffer k b i s) := by
  unfold cancelBuffer
  split
  · refine .ite (fun _ => .ite (fun _ => ?_) fun _ => (setBuf_only ..).queueShrinks rfl) fun _ => .of_eq rfl
    exact ((withdrawJobs_only ..).queueShrinks rfl).trans ((setBuf_only ..).queueShrinks rfl)
  · exact .ite (fun _ => .ite (fun _ => (queueShrinks_txGiveUp ..).trans ((setBuf_only ..).queueShrinks rfl))
      fun _ => (queueShrinks_txWithdraw ..).trans ((setBuf_only ..).queueShrinks rfl)) fun _ => .of_eq rfl
  · exact .of_eq rfl

theorem Only.mute {ps : List Part} (h : Only ps s t) (off : ps.elem .link = false) (mute : Mute s) : Mute t := by
  unfold Mute
  rwa [h.link off]

/-- The cancellation of an entry, with the OFFER of the next one left out (R147). -/
theorem cancelEntry_mute (mute : Mute s) (k : Key) (b : Block) : cancelEntry k b s =
    cancelBuffer k b .ob1 (cancelBuffer k b .ob0 (txGiveUp (isOfferOf k b) (removeEntry k b s))) := by
  refine offerNext_mute ?_
  exact (cancelBuffer_only ..).mute rfl ((cancelBuffer_only ..).mute rfl ((txGiveUp_only ..).mute rfl
    ((removeEntry_only k b s).mute rfl mute)))

theorem queueShrinks_cancelEntry (mute : Mute s) (k : Key) (b : Block) : QueueShrinks s (cancelEntry k b s) := by
  rw [cancelEntry_mute mute]
  exact ((((removeEntry_only k b s).queueShrinks rfl).trans (queueShrinks_txGiveUp ..)).trans
    (queueShrinks_cancelBuffer ..)).trans (queueShrinks_cancelBuffer ..)

theorem cancelEntry_serveQueue (mute : Mute s) (k : Key) (b : Block) :
    (cancelEntry k b s).serve.queue = s.serve.queue.filter (fun e => !e.isFor k b) := by
  have kept (s : State) : (cancelBuffer k b .ob1 (cancelBuffer k b .ob0 (txGiveUp (isOfferOf k b) s))).serve.queue =
      s.serve.queue := by
    have buffer (i : OutBufId) (s : State) : (cancelBuffer k b i s).serve.queue = s.serve.queue := by
      unfold cancelBuffer
      split
      · split
        · split <;> exact (setBuf_only ..).serveQueue rfl
        · rfl
      · split
        · split <;> exact (setBuf_only ..).serveQueue rfl
        · rfl
      · rfl
    rw [buffer, buffer]
    rfl
  rw [cancelEntry_mute mute, kept]
  rfl

/-- Every serve entry is cancelled (R149). -/
theorem cancelAll_mute (mute : Mute s) : (cancelEntries (fun _ => true) s).serve.queue = [] ∧
    QueueShrinks s (cancelEntries (fun _ => true) s) := by
  have fold (es : List ServeEntry) {s : State} (mute : Mute s) :
      (es.foldl (fun t e => cancelEntry e.key e.block t) s).serve.queue =
        s.serve.queue.filter (fun x => es.all (fun e => !x.isFor e.key e.block)) ∧
      QueueShrinks s (es.foldl (fun t e => cancelEntry e.key e.block t) s) := by
    induction es generalizing s with
    | nil => exact ⟨(List.filter_eq_self.mpr fun _ _ => rfl).symm, .of_eq rfl⟩
    | cons e es ih =>
      have muted : Mute (cancelEntry e.key e.block s) := (cancelEntry_only ..).mute rfl mute
      obtain ⟨serve, queue⟩ := ih muted
      refine ⟨?_, (queueShrinks_cancelEntry mute ..).trans queue⟩
      rw [List.foldl_cons, serve, cancelEntry_serveQueue mute, List.filter_filter]
      refine List.filter_congr fun x _ => ?_
      rw [List.all_cons, Bool.and_comm]
  unfold cancelEntries
  obtain ⟨serve, queue⟩ := fold (s.serve.queue.filter fun _ => true) mute
  refine ⟨?_, queue⟩
  rw [serve, List.filter_eq_nil_iff]
  intro x hx all
  have own := List.all_eq_true.mp all x (List.mem_filter.mpr ⟨hx, rfl⟩)
  rw [x.isFor_self] at own
  exact Bool.noConfusion own

/-! ## LISTEN-ONLY and CLASH -/

theorem clearQueue_only (s : State) : Only (.line :: .queue :: clearedParts) s (clearQueue s) :=
  (only_queue _ s).next (Only.foldl clearedReport_only _ _) rfl rfl

theorem clearQueue_queue (s : State) : (clearQueue s).line.queue = s.line.queue.filter (·.onLine) := by
  unfold clearQueue
  exact (Only.foldl clearedReport_only { s with line := { s.line with queue := s.line.queue.filter (·.onLine) } }
    (s.line.queue.filter (fun e => !e.onLine))).queue rfl

/-- The parts that LISTEN-ONLY and CLASH touch beside the link. -/
abbrev quietParts : List Part := [.notice] ++ clearedParts ++ cancelParts

theorem quiet_only (s : State) : Only quietParts s (quiet s) :=
  have told := (only_watch { s.notice with periodicLeft := none, changed := false, owed := false } s rfl).mono (ps := quietParts) rfl
  (told.andThen (clearQueue_only _) rfl).andThen (cancelEntries_only ..) rfl

/-- LISTEN-ONLY and CLASH leave on the queue only what is on the line, no serve entry, and nothing for the notice unit to do. -/
theorem quiet_mute (mute : Mute s) : (∀ x ∈ (quiet s).line.queue, ∃ y ∈ s.line.queue, y.onLine = true ∧ x.onLine = true) ∧
    (quiet s).serve.queue = [] ∧ (quiet s).notice.periodicLeft = none ∧ (quiet s).notice.changed = false ∧
    (quiet s).notice.owed = false := by
  let told : State := { s with notice := { s.notice with periodicLeft := none, changed := false, owed := false } }
  have muted : Mute (clearQueue told) := (clearQueue_only told).mute rfl mute
  have kept : (quiet s).notice = told.notice :=
    ((cancelEntries_only _ (clearQueue told)).notice rfl).trans ((clearQueue_only told).notice rfl)
  obtain ⟨serve, shrinks⟩ := cancelAll_mute muted
  refine ⟨fun x hx => ?_, serve, by rw [kept], by rw [kept], by rw [kept]⟩
  obtain ⟨y, hy, same⟩ := shrinks.from_ x hx
  rw [clearQueue_queue] at hy
  obtain ⟨hy, onLine⟩ := List.mem_filter.mp hy
  exact ⟨y, hy, onLine, same.trans onLine⟩

/-- The link as it enters CLASH, before the other blocks hear of it (R88). -/
def clashBegun (s : State) : State :=
  { setLink .clash s with line := { (setLink .clash s).line with joinLeft := none, listen := .stopped } }

theorem exec_clash (on : s.line.link ≠ .offline) : exec .clash s = .next (clashFrame s) := if_neg on

theorem clashFrame_of_listening (on : s.line.link ≠ .offline) (calm : s.line.link ≠ .clash) :
    clashFrame s = quiet (clashBegun (frameEnds false s)) := by
  unfold clashFrame
  cases link : s.line.link with
  | joining | active | listenOnly => rfl
  | offline => exact absurd link on
  | clash => exact absurd link calm

/-- Settles O35: the entry to CLASH and what it does to the other blocks. -/
theorem ownAddressClashes : Obligations.OwnAddressClashes := by
  unfold Obligations.OwnAddressClashes
  refine fun s on => ⟨fun calm => ?_, fun clash => ?_⟩
  · have run := exec_clash on
    rw [clashFrame_of_listening on calm] at run
    have only := quiet_only (clashBegun (frameEnds false s))
    obtain ⟨queue, serve, periodic, _, _⟩ := quiet_mute (s := clashBegun (frameEnds false s)) rfl
    refine ⟨_, run, only.link rfl, only.joinLeft rfl, only.listen rfl, fun x hx => ?_, serve, only.peers rfl, periodic,
      only.receiveErrors rfl, only.echoMiss rfl, only.echoDriven rfl, only.events rfl⟩
    obtain ⟨_, _, _, onLine⟩ := queue x hx
    exact onLine
  · rw [exec_clash on]
    unfold clashFrame
    rw [clash]
    rfl

/-! ## The sixteenth miss -/

/-- The link as it enters LISTEN-ONLY, before the other blocks hear of it (R87). -/
def listenBegun (timer : ListenTimer) (s : State) : State :=
  { setLink .listenOnly s with
    line := { (setLink .listenOnly s).line with echoMiss := 0, joinLeft := none, listen := timer } }

theorem enterListenOnly_eq (timer : ListenTimer) (s : State) : enterListenOnly timer s = quiet (listenBegun timer s) := rfl

/-- LISTEN-ONLY as the sixteenth miss leaves it (R83, R87, R89, R94, R149). -/
structure Listening (n : Nat) (t : State) : Prop where
  link : t.line.link = .listenOnly
  listen : t.line.listen = .running 5000
  echoMiss : t.line.echoMiss = 0
  joinLeft : t.line.joinLeft = none
  unechoed : t.line.unechoed = n
  queue : t.line.queue = []
  serve : t.serve.queue = []
  periodic : t.notice.periodicLeft = none
  changed : t.notice.changed = false
  owed : t.notice.owed = false
  free : NotProtected t

variable {n : Nat}

theorem Listening.mute (h : Listening n s) : Mute s := by
  unfold Mute
  rw [h.link]
  rfl

/-- An operation that shrinks the transmit queue, leaves the serve queue and the rest of the line, and takes no PROTECTED job. -/
theorem Listening.only (h : Listening n s) {ps : List Part} (k : Only ps s t)
    (off : [Part.link, .timers, .counts, .serveQueue, .notice].all (fun p => !ps.elem p) = true)
    (queue : QueueShrinks s t) (free : NotProtected t) : Listening n t := by
  have part (p : Part) (hp : p ∈ [Part.link, .timers, .counts, .serveQueue, .notice]) : ps.elem p = false := by
    simpa using List.all_eq_true.mp off p hp
  have notice : t.notice = s.notice := k.notice (part _ (by decide))
  refine ⟨(k.link (part _ (by decide))).trans h.link, (k.listen (part _ (by decide))).trans h.listen,
    (k.echoMiss (part _ (by decide))).trans h.echoMiss, (k.joinLeft (part _ (by decide))).trans h.joinLeft,
    (k.unechoed (part _ (by decide))).trans h.unechoed, ?_, (k.serveQueue (part _ (by decide))).trans h.serve,
    notice ▸ h.periodic, notice ▸ h.changed, notice ▸ h.owed, free⟩
  refine List.eq_nil_iff_forall_not_mem.mpr fun x hx => ?_
  obtain ⟨y, hy, _⟩ := queue.from_ x hx
  rw [h.queue] at hy
  exact List.not_mem_nil hy

theorem queueShrinks_releaseCtx (i : Fin 4) (s : State) : QueueShrinks s (releaseCtx i s) := by
  unfold releaseCtx
  extract_lets c taken held t u
  have orphaned : QueueShrinks s (if taken then orphanService s else s) :=
    .ite (fun _ => (orphanService_only s).queueShrinks rfl) fun _ => .of_eq rfl
  have withdrawn : QueueShrinks s t := (orphaned.trans ((withdrawJobs_only ..).queueShrinks rfl)).trans (queueShrinks_txGiveUp ..)
  exact (withdrawn.trans ((setCtx_only ..).queueShrinks rfl)).trans ((only_pool _ _ u).queueShrinks rfl)

theorem queueShrinks_deferBlock (i : Fin 4) (s : State) : QueueShrinks s (deferBlock i s) :=
  ((((blockEvent_only ..).queueShrinks rfl).trans (queueShrinks_releaseCtx i _)).trans
    ((only_deferral _ _).queueShrinks rfl)).trans ((raise_only ..).queueShrinks rfl)

theorem queueShrinks_submitAsk (mute : Mute s) (i : Fin 4) : QueueShrinks s (submitAsk i s) := by
  unfold submitAsk
  dsimp only
  rw [if_neg (by rw [txAnswer_mute mute]; exact nofun)]
  exact (setCtx_only ..).queueShrinks rfl

theorem queueShrinks_enterAsking (mute : Mute s) (i : Fin 4) : QueueShrinks s (enterAsking i s) :=
  .ite (fun _ => queueShrinks_deferBlock i s) fun _ => .ite
    (fun _ => ((setCtx_only ..).queueShrinks rfl).trans (queueShrinks_submitAsk ((setCtx_only ..).mute rfl mute) i))
    fun _ => (setCtx_only ..).queueShrinks rfl

theorem Listening.askUnsent (h : Listening n s) (i : Fin 4) : Listening n (askUnsent i s) := by
  unfold Machine.askUnsent
  split
  · have cleared := updateCtx_only i (fun c => { c with server := none, askQueued := false }) s
    refine h.only (cleared.next (enterAsking_only i _) rfl rfl (ps := deferParts)) rfl
      ((cleared.queueShrinks rfl).trans (queueShrinks_enterAsking (cleared.mute rfl h.mute) i)) ?_
    exact (steady_enterAsking i _).free (cleared.free rfl h.free)
  · exact h

theorem removeEntry_of_empty (h : s.serve.queue = []) (k : Key) (b : Block) : removeEntry k b s = s := by
  unfold removeEntry setServeQueue
  rw [h, List.filter_nil, ← h]

theorem Listening.segmentFreed (h : Listening n s) (i : OutBufId) : serveAdvance (setBuf i .free s) = setBuf i .free s := by
  have none : sendingEntry (setBuf i .free s) = none := by
    unfold sendingEntry
    rw [(setBuf_only ..).serveQueue rfl, h.serve]
    rfl
  have done : ServeDone (setBuf i .free s) := by
    unfold ServeDone
    rw [none]
    exact Nat.le_refl 16
  rw [serveAdvance_of_done done]
  unfold endServe
  rw [none]

theorem Listening.setBuf (h : Listening n s) (i : OutBufId) : Listening n (setBuf i .free s) :=
  h.only (setBuf_only ..) rfl ((setBuf_only ..).queueShrinks rfl) ((setBuf_only ..).free rfl h.free)

/-- No report brings a listening station to send, or to serve (R87, R112, R113). -/
theorem Listening.attemptReport (h : Listening n s) (e : TxEntry) : Listening n (attemptReport false e s) := by
  unfold Machine.attemptReport
  split
  · exact h
  · have published := publishReport_only (if false then 0 else 1) s
    exact h.only published rfl (published.queueShrinks rfl) (published.free rfl h.free)
  · dsimp only
    rw [if_neg Bool.false_ne_true]
    split
    · exact h.askUnsent _
    · exact h
  · split
    · unfold offerReport
      rw [if_neg Bool.false_ne_true, removeEntry_of_empty h.serve, offerNext_mute h.mute]
      exact h
    · exact h
  · rename_i _ _ i _
    have freed : segmentReport false i s = Machine.setBuf i .free s := h.segmentFreed i
    rw [freed]
    exact h.setBuf i
  · exact h

theorem Listening.givenUpReport (h : Listening n s) (e : TxEntry) : Listening n (givenUpReport e s) := by
  unfold Machine.givenUpReport
  split
  · rw [h.segmentFreed]
    exact h.setBuf _
  · exact h

theorem afterAttempt_mute (mute : Mute s) (o : Owner) : afterAttempt o s = s := by
  cases o with
  | noticeUnit => exact submitOwed_mute mute
  | fetch i => exact fetchFollow_mute mute
  | catalogue | serveOffer | serveBuffer _ => rfl

/-- The line as the attempt of an entry ends at the sixteenth miss (R76, R83). -/
theorem listening_missed {q : List TxEntry} (off : ∀ x ∈ q, x.onLine = false) (sends : linkSends s.line.link = true)
    (misses : s.line.echoMiss = 15) (free : NotProtected s) :
    Listening (count16 s.line.unechoed) (missedOut (lineLeft q { s with line := countAttempt false s.line })) := by
  let missed : State := lineLeft q { s with line := countAttempt false s.line }
  let begun : State := listenBegun (.running 5000) missed
  have listens : missedOut missed = quiet begun := by
    refine if_pos ?_
    have link : missed.line.link = s.line.link := rfl
    have count : missed.line.echoMiss = 16 := by
      change (if linkSends s.line.link then min 16 (s.line.echoMiss + 1) else s.line.echoMiss) = 16
      rw [sends, misses]
      rfl
    rw [link, sends, count]
    rfl
  rw [show missedOut (lineLeft q { s with line := countAttempt false s.line }) = quiet begun from listens]
  have only := quiet_only begun
  obtain ⟨queue, serve, periodic, changed, owed⟩ := quiet_mute (s := begun) rfl
  refine ⟨only.link rfl, only.listen rfl, only.echoMiss rfl, only.joinLeft rfl, only.unechoed rfl, ?_, serve, periodic, changed,
    owed, only.free rfl free⟩
  refine List.eq_nil_iff_forall_not_mem.mpr fun x hx => ?_
  obtain ⟨y, hy, onLine, _⟩ := queue x hx
  exact Bool.noConfusion ((off y hy).symm.trans onLine)

theorem queueAfterAttempt_off (gone : Bool) (q : List TxEntry) : ∀ x ∈ queueAfterAttempt gone q, x.onLine = false := by
  intro x hx
  unfold queueAfterAttempt at hx
  cases gone
  · obtain ⟨y, _, rfl⟩ := List.mem_map.mp hx
    by_cases onLine : y.onLine = true
    · rw [if_pos onLine]
    · rw [if_neg onLine]
      simpa using onLine
  · simpa using (List.mem_filter.mp hx).2

/-- The end of the attempt that brings the sixteenth miss. -/
theorem listening_endAttempt (e : TxEntry) (sends : linkSends s.line.link = true) (misses : s.line.echoMiss = 15)
    (free : NotProtected s) : Listening (count16 s.line.unechoed) (endAttempt false e s) := by
  let gone : Bool := attemptDecides false s.line.link e || givenUp e
  let heard : State := missedOut (lineLeft (queueAfterAttempt gone s.line.queue) { s with line := countAttempt false s.line })
  have listening : Listening (count16 s.line.unechoed) heard :=
    listening_missed (queueAfterAttempt_off gone s.line.queue) sends misses free
  have reported : Listening (count16 s.line.unechoed) (if attemptDecides false s.line.link e then attemptReport false e heard
      else if givenUp e then givenUpReport e heard else heard) := by
    split
    · exact listening.attemptReport e
    · split
      · exact listening.givenUpReport e
      · exact listening
  have ends : endAttempt false e s = afterAttempt e.owner (if attemptDecides false s.line.link e then
      attemptReport false e heard else if givenUp e then givenUpReport e heard else heard) := rfl
  rw [ends, afterAttempt_mute reported.mute]
  exact reported

/-- Settles O34: the sixteenth miss takes the link to LISTEN-ONLY, where no report submits anything. -/
theorem sixteenthMissListens : Obligations.SixteenthMissListens := by
  unfold Obligations.SixteenthMissListens
  intro s before after e queue onLine others sends misses hp
  have run := exec_bitError ⟨queue, onLine, others⟩
  have h := listening_endAttempt e sends misses hp
  rw [settle_mute h.free h.mute] at run
  exact ⟨_, run, h.link, h.listen, h.echoMiss, h.joinLeft, h.queue, h.serve, h.periodic, h.changed, h.owed, h.unechoed⟩

end Sys2Proof.Machine
end

section
/-! SUPPORT. SEQUENCER: the active-slot law through an event. `Honest` says that the service tells truly whether its job is a
guarded one; `Gentle` says that an operation keeps that, adds no job that names the active slot, and lets the job in service be.
One lemma for each operation that hands jobs to the sequencer. -/

namespace Sys2Proof.Machine

variable {a s t u : State} {i : Fin 4} {b : Block}

/-! ## The law -/

/-- A job in service that waits to end with PROTECTED is one that names the active slot; in the strict sense, every one that
names it so waits (R25). -/
def Honest (strict : Bool) (s : State) : Prop :=
  ∀ v, s.flash.service = some v →
    (v.op = .protectedReturn → guardedSlot v.job = some s.cat.activeSlot) ∧
    (strict = true → guardedSlot v.job = some s.cat.activeSlot → v.op = .protectedReturn)

/-- The start-up reads have ended (R192). -/
def ReadsOver (s : State) : Prop := s.startUp.stage = .rebuilding ∨ s.startUp.stage = .running

/-- A job without the wipe mark names the active slot. -/
def namesActive (s : State) (j : Job) : Bool := guardedSlot j = some s.cat.activeSlot

/-- The number of waiting jobs that name the active slot. -/
def waitingGuarded (s : State) : Nat := (waitingJobs s).countP (namesActive s)

/-- The job in service waits to end with PROTECTED. -/
def inProtected (s : State) : Bool := s.flash.service.any (fun v => v.op = .protectedReturn)

/-- The jobs that name the active slot and have not ended: those that wait, and one in service that waits to end. -/
def guardedJobs (s : State) : Nat := waitingGuarded s + (inProtected s).toNat

theorem inProtected_false_iff : inProtected s = false ↔ NotProtected s := by
  unfold inProtected NotProtected
  cases s.flash.service <;> simp

/-- The take tells truly (R25). -/
theorem takeJob_protected_iff (s : State) (j : Job) : (takeJob s j).op = .protectedReturn ↔ namesActive s j = true := by
  have two (req : Requester) (x : Slot) (other : Op) (h : other ≠ .protectedReturn) :
      (if protects s req x then Op.protectedReturn else other) = .protectedReturn ↔
        decide ((if req = .wipe then none else some x) = some s.cat.activeSlot) = true := by
    unfold protects
    by_cases wipe : req = .wipe <;> by_cases same : x = s.cat.activeSlot <;> simp [wipe, same, h]
  cases j with
  | eraseUnit req x b => exact two req x (.erase 0) (by decide)
  | programSegment req x b g d => exact two req x .main (by decide)
  | _ => exact ⟨nofun, nofun⟩

/-- No job that names the active slot is anywhere in the sequencer (R25). -/
theorem guardedJobs_zero_iff : guardedJobs s = 0 ↔ NotProtected s ∧ QueuesSpareActive s := by
  unfold guardedJobs
  rw [Nat.add_eq_zero_iff, ← inProtected_false_iff, Bool.toNat_eq_zero, and_comm]
  refine and_congr_right fun _ => ?_
  unfold waitingGuarded QueuesSpareActive
  rw [List.countP_eq_zero]
  exact forall₂_congr fun j _ => not_congr (takeJob_protected_iff s j).symm

/-- An operation keeps the law: what it adds to the sequencer names the active slot nowhere, the job in service goes on, and
the start-up reads stay over. -/
structure Gentle (s t : State) : Prop where
  active : t.cat.activeSlot = s.cat.activeSlot
  jobs : guardedJobs t ≤ guardedJobs s
  honest : ∀ strict, Honest strict s → Honest strict t
  busy : ∀ v, s.flash.service = some v → ∃ w, t.flash.service = some w ∧ w.job = v.job ∧ w.op = v.op
  over_ : ReadsOver s → ReadsOver t

theorem Gentle.refl (s : State) : Gentle s s := ⟨rfl, Nat.le_refl _, fun _ => id, fun v hv => ⟨v, hv, rfl, rfl⟩, id⟩

theorem Gentle.trans (h : Gentle s t) (k : Gentle t u) : Gentle s u := by
  refine ⟨k.active.trans h.active, k.jobs.trans h.jobs, fun strict => k.honest strict ∘ h.honest strict, fun v hv => ?_,
    k.over_ ∘ h.over_⟩
  obtain ⟨w, hw, job, op⟩ := h.busy v hv
  obtain ⟨x, hx, job', op'⟩ := k.busy w hw
  exact ⟨x, hx, job'.trans job, op'.trans op⟩

theorem Gentle.ite {c : Prop} [Decidable c] {x y : State} (hx : c → Gentle s x) (hy : ¬ c → Gentle s y) :
    Gentle s (if c then x else y) := by
  split
  · exact hx ‹_›
  · exact hy ‹_›

theorem Gentle.foldl {α : Type} {f : State → α → State} (hf : ∀ (t : State) (x : α), Gentle t (f t x)) (s : State) (l : List α) :
    Gentle s (l.foldl f s) := by
  induction l generalizing s with
  | nil => exact .refl s
  | cons x xs ih => exact (hf s x).trans (ih _)

/-- No job that waits or is in service names the active slot: that stays (R25). -/
theorem Gentle.spared (h : Gentle s t) (free : NotProtected s) (queues : QueuesSpareActive s) :
    NotProtected t ∧ QueuesSpareActive t :=
  guardedJobs_zero_iff.mp (Nat.le_zero.mp (h.jobs.trans (guardedJobs_zero_iff.mpr ⟨free, queues⟩).le))

/-! ## Operations beside the sequencer -/

/-- An operation that leaves the service, the active slot and the phase, and adds no waiting job. -/
theorem gentle_of_fewer (service : t.flash.service = s.flash.service) (active : t.cat.activeSlot = s.cat.activeSlot)
    (stage : t.startUp.stage = s.startUp.stage) (waiting : waitingGuarded t ≤ waitingGuarded s) : Gentle s t := by
  refine ⟨active, ?_, fun strict h v hv => ?_, fun v hv => ⟨v, service ▸ hv, rfl, rfl⟩, fun h => ?_⟩
  · unfold guardedJobs inProtected
    rw [service]
    exact Nat.add_le_add_right waiting _
  · rw [active]
    exact h v (service ▸ hv)
  · unfold ReadsOver
    rw [stage]
    exact h

theorem waitingGuarded_le_of_sublist (active : t.cat.activeSlot = s.cat.activeSlot)
    (waiting : (waitingJobs t).Sublist (waitingJobs s)) : waitingGuarded t ≤ waitingGuarded s := by
  unfold waitingGuarded namesActive
  rw [active]
  exact waiting.countP_le

/-- The parts that the law speaks of. -/
abbrev lawParts : List Part := [.service, .jobs, .work, .activeSlot, .stage]

theorem Only.gentle {ps : List Part} (h : Only ps s t) (off : lawParts.all (fun p => !ps.elem p) = true) : Gentle s t := by
  have part (p : Part) (hp : p ∈ lawParts) : ps.elem p = false := by
    simpa using List.all_eq_true.mp off p hp
  have active := h.activeSlot (part _ (by decide))
  refine gentle_of_fewer (h.service (part _ (by decide))) active (h.stage (part _ (by decide)))
    (waitingGuarded_le_of_sublist active ?_)
  have jobs := h.keep .jobs (part _ (by decide))
  obtain ⟨record, rest⟩ := Prod.mk.inj jobs
  obtain ⟨fetch, rest⟩ := Prod.mk.inj rest
  obtain ⟨serve, host⟩ := Prod.mk.inj rest
  unfold waitingJobs
  rw [record, fetch, serve, host, h.work (part _ (by decide))]

theorem Gentle.then {ps : List Part} (h : Gentle a s) (k : Only ps s t)
    (off : lawParts.all (fun p => !ps.elem p) = true) : Gentle a t := h.trans (k.gentle off)

/-! ## The sequencer's own operations -/

theorem waitingJobs_setJobs_sublist {q : Queue} {js : List Job} (h : js.Sublist (s.flash.jobs q)) :
    (waitingJobs { s with flash := s.flash.setJobs q js }).Sublist (waitingJobs s) := by
  have same (l : List Job) : l.Sublist l := List.Sublist.refl l
  cases q
  · exact (((h.append (same _)).append (same _)).append (same _)).append (same _)
  · exact ((((same _).append h).append (same _)).append (same _)).append (same _)
  · exact ((((same _).append (same _)).append h).append (same _)).append (same _)
  · exact ((((same _).append (same _)).append (same _)).append h).append (same _)

theorem gentle_withdrawJobs (q : Queue) (p : Job → Bool) (s : State) : Gentle s (withdrawJobs q p s) :=
  gentle_of_fewer (setJobs_service ..) rfl rfl
    (waitingGuarded_le_of_sublist rfl (waitingJobs_setJobs_sublist (List.filter_sublist ..)))

theorem gentle_orphanService (s : State) : Gentle s (orphanService s) := by
  have op : inProtected (orphanService s) = inProtected s := by
    unfold inProtected orphanService
    cases s.flash.service <;> rfl
  refine ⟨rfl, ?_, fun strict h v hv => ?_, fun v hv => ⟨{ v with orphan := true }, ?_, rfl, rfl⟩, id⟩
  · unfold guardedJobs
    rw [op]
    exact Nat.le_refl _
  · obtain ⟨w, hw, rfl⟩ := Option.map_eq_some_iff.mp hv
    exact h w hw
  · exact congrArg (Option.map _) hv

theorem countP_pickServeHost {f g : Sequencer} {j : Job} (p : Job → Bool) (h : f.pickServeHost = some (j, g)) :
    (g.recordQ ++ g.fetchQ ++ g.serveQ ++ g.hostQ).countP p + (p j).toNat =
      (f.recordQ ++ f.fetchQ ++ f.serveQ ++ f.hostQ).countP p := by
  have one : (p j).toNat = if p j = true then 1 else 0 := by cases p j <;> rfl
  unfold Sequencer.pickServeHost at h
  rw [one]
  split at h
  · cases h
  · rename_i serve _
    cases h
    simp only [serve, List.countP_append, List.countP_cons]
    omega
  · rename_i _ host
    cases h
    simp only [host, List.countP_append, List.countP_cons]
    omega
  · rename_i serve host
    split at h
    · cases h
      simp only [serve, List.countP_append, List.countP_cons]
      omega
    · cases h
      simp only [host, List.countP_append, List.countP_cons]
      omega

/-- The job that a pick takes leaves the queues, and no other (R22). -/
theorem countP_pick {f g : Sequencer} {j : Job} (p : Job → Bool) (h : f.pick = some (j, g)) :
    (g.recordQ ++ g.fetchQ ++ g.serveQ ++ g.hostQ).countP p + (p j).toNat =
      (f.recordQ ++ f.fetchQ ++ f.serveQ ++ f.hostQ).countP p := by
  have one : (p j).toNat = if p j = true then 1 else 0 := by cases p j <;> rfl
  unfold Sequencer.pick at h
  split at h
  · rename_i record
    cases h
    rw [one]
    simp only [record, List.countP_append, List.countP_cons]
    omega
  · split at h
    · exact countP_pickServeHost p h
    · split at h
      · rename_i fetch
        cases h
        rw [one]
        simp only [fetch, List.countP_append, List.countP_cons]
        omega
      · exact countP_pickServeHost p h

/-- A pick is honest, and takes one waiting job into service at most. -/
theorem pickJob_law (s : State) : guardedJobs (pickJob s) ≤ waitingGuarded s ∧ ∀ strict, Honest strict (pickJob s) := by
  unfold pickJob
  split
  · refine ⟨?_, fun strict v hv => nomatch hv⟩
    unfold guardedJobs
    exact Nat.le_of_eq (Nat.add_zero _)
  · rename_i j f hp
    constructor
    · have counts := countP_pick (namesActive s) hp
      have protect : (decide ((takeJob s j).op = .protectedReturn)) = namesActive s j := by
        rw [Bool.eq_iff_iff, decide_eq_true_eq, takeJob_protected_iff]
      unfold guardedJobs inProtected waitingGuarded waitingJobs
      change ((f.recordQ ++ f.fetchQ ++ f.serveQ ++ f.hostQ ++ s.cat.work).countP (namesActive s)) +
        (decide ((takeJob s j).op = .protectedReturn)).toNat ≤ _
      rw [protect, List.countP_append, List.countP_append (l₁ := s.flash.recordQ ++ s.flash.fetchQ ++ s.flash.serveQ ++ s.flash.hostQ)]
      omega
    · intro strict v hv
      cases hv
      have law := takeJob_protected_iff s j
      rw [namesActive, decide_eq_true_eq] at law
      rw [takeJob_job]
      exact ⟨law.mp, fun _ => law.mpr⟩

theorem pickJob_active (s : State) : (pickJob s).cat.activeSlot = s.cat.activeSlot := (pickJob_onlyParts s).activeSlot rfl

theorem countP_queued (p : Job → Bool) (q : Queue) (j : Job) (f : Sequencer) :
    let g := f.setJobs q (f.jobs q ++ [j])
    (g.recordQ ++ g.fetchQ ++ g.serveQ ++ g.hostQ).countP p =
      (f.recordQ ++ f.fetchQ ++ f.serveQ ++ f.hostQ).countP p + (p j).toNat := by
  have one : (p j).toNat = if p j = true then 1 else 0 := by cases p j <;> rfl
  rw [one]
  cases q
  all_goals
    simp only [Sequencer.setJobs, Sequencer.jobs, List.countP_append, List.countP_cons, List.countP_nil]
    omega

theorem waitingGuarded_queued (q : Queue) (j : Job) (s : State) :
    waitingGuarded { s with flash := s.flash.setJobs q (s.flash.jobs q ++ [j]) } = waitingGuarded s + (namesActive s j).toNat := by
  have queued := countP_queued (namesActive s) q j s.flash
  have split (t : State) : waitingGuarded t =
      (t.flash.recordQ ++ t.flash.fetchQ ++ t.flash.serveQ ++ t.flash.hostQ).countP (namesActive t) +
        t.cat.work.countP (namesActive t) := List.countP_append
  rw [split, split]
  have same (k : Job) : namesActive { s with flash := s.flash.setJobs q (s.flash.jobs q ++ [j]) } k = namesActive s k := rfl
  rw [funext same, queued]
  dsimp only
  omega

/-- A submission brings one job into the sequencer at most (R20, R22). -/
theorem submit_law (q : Queue) (j : Job) (s : State) : guardedJobs (submit q j s) ≤ guardedJobs s + (namesActive s j).toNat ∧
    (∀ strict, Honest strict s → Honest strict (submit q j s)) ∧
    ∀ v, s.flash.service = some v → (submit q j s).flash.service = some v := by
  let queued : State := { s with flash := s.flash.setJobs q (s.flash.jobs q ++ [j]) }
  have waiting : waitingGuarded queued = waitingGuarded s + (namesActive s j).toNat := waitingGuarded_queued q j s
  have service : queued.flash.service = s.flash.service := setJobs_service ..
  by_cases idle : (s.flash.service = none && s.flash.noJobs) = true
  · have eq : submit q j s = pickJob queued := if_pos idle
    obtain ⟨jobs, honest⟩ := pickJob_law queued
    rw [eq]
    refine ⟨?_, fun strict _ => honest strict, fun v hv => ?_⟩
    · rw [waiting] at jobs
      unfold guardedJobs
      unfold guardedJobs at jobs
      omega
    · simp [hv] at idle
  · by_cases room : (s.flash.jobs q).length < q.capacity
    · have eq : submit q j s = queued := (if_neg idle).trans (if_pos room)
      rw [eq]
      refine ⟨?_, fun strict h v hv => h v (service ▸ hv), fun v hv => service ▸ hv⟩
      unfold guardedJobs inProtected
      rw [waiting, service]
      omega
    · have eq : submit q j s = s := (if_neg idle).trans (if_neg room)
      rw [eq]
      exact ⟨Nat.le_add_right .., fun _ => id, fun _ => id⟩

/-- A job that does not name the active slot is handed over gently (R20, R25). -/
theorem gentle_submit {q : Queue} {j : Job} (h : guardedSlot j ≠ some s.cat.activeSlot) : Gentle s (submit q j s) := by
  obtain ⟨jobs, honest, busy⟩ := submit_law q j s
  have only := submit_onlyParts q j s
  refine ⟨only.activeSlot rfl, ?_, honest, fun v hv => ⟨v, busy v hv, rfl, rfl⟩, fun over_ => ?_⟩
  · rw [namesActive, decide_eq_false h] at jobs
    exact jobs
  · unfold ReadsOver
    rw [only.stage rfl]
    exact over_

/-- The record work list is handed over gently: its jobs wait already (R50). -/
theorem gentle_pumpWork (n : Nat) (s : State) : Gentle s (pumpWork n s) := by
  induction n generalizing s with
  | zero => exact .refl s
  | succ n ih =>
    unfold pumpWork
    split
    · exact .refl s
    · rename_i j js work
      refine .ite (fun _ => ?_) fun _ => .refl s
      let less : State := { s with cat := { s.cat with work := js } }
      obtain ⟨jobs, honest, busy⟩ := submit_law .record j less
      have only := submit_onlyParts .record j less
      refine Gentle.trans ⟨only.activeSlot rfl, ?_, fun strict h => honest strict h, fun v hv => ⟨v, busy v hv, rfl, rfl⟩,
        fun over_ => ?_⟩ (ih _)
      · have fewer : waitingGuarded s = waitingGuarded less + (namesActive s j).toNat := by
          have one : (namesActive s j).toNat = if namesActive s j = true then 1 else 0 := by cases namesActive s j <;> rfl
          unfold waitingGuarded waitingJobs
          rw [one, work]
          change _ = List.countP (namesActive s) _ + _
          simp only [List.countP_append, List.countP_cons, less]
          omega
        have same : inProtected less = inProtected s := rfl
        change guardedJobs (submit .record j less) ≤ guardedJobs less + (namesActive s j).toNat at jobs
        unfold guardedJobs at jobs ⊢
        rw [fewer]
        rw [same] at jobs
        omega
      · unfold ReadsOver
        rw [only.stage rfl]
        exact over_

/-- A job that does not name the active slot is added to the record work list gently (R50). -/
theorem gentle_addWork {j : Job} (h : guardedSlot j = none) (s : State) : Gentle s (addWork j s) := by
  let more : State := { s with cat := { s.cat with work := s.cat.work ++ [j] } }
  have off : namesActive s j = false := by simp [namesActive, h]
  have waiting : waitingGuarded more ≤ waitingGuarded s := by
    change (waitingJobs more).countP (namesActive s) ≤ _
    unfold waitingGuarded waitingJobs
    simp [more, List.countP_append, off]
  have added : Gentle s more := gentle_of_fewer rfl rfl rfl waiting
  exact added.trans (gentle_pumpWork 8 more)

/-- The end of a service: whatever was in service has ended, and the law holds of what comes (R22, R25). -/
theorem endService_law (s : State) : guardedJobs (endService s) ≤ waitingGuarded s ∧ (∀ strict, Honest strict (endService s)) ∧
    (endService s).cat.activeSlot = s.cat.activeSlot ∧ (ReadsOver s → ReadsOver (endService s)) := by
  obtain ⟨jobs, honest⟩ := pickJob_law s
  have pumped := gentle_pumpWork 8 (pickJob s)
  refine ⟨pumped.jobs.trans jobs, fun strict => pumped.honest strict (honest strict), pumped.active.trans (pickJob_active s),
    fun over_ => pumped.over_ ?_⟩
  unfold ReadsOver
  rw [(pickJob_onlyParts s).stage rfl]
  exact over_

/-! ## Fetch and serve -/

/-- A job of the staging slot, or one that the law does not guard, is handed over gently. -/
theorem gentle_submit_staging {q : Queue} {j : Job} (active : t.cat.activeSlot = s.cat.activeSlot)
    (h : guardedSlot j = some (stagingSlot s) ∨ guardedSlot j = none) : Gentle t (submit q j t) := by
  refine gentle_submit ?_
  rw [active]
  rcases h with h | h
  · rw [h]
    exact fun e => stagingSlot_ne s (Option.some.inj e)
  · rw [h]
    exact nofun

theorem gentle_releaseCtx (i : Fin 4) (s : State) : Gentle s (releaseCtx i s) := by
  unfold releaseCtx
  extract_lets c taken held t u
  have orphaned : Gentle s (if taken then orphanService s else s) :=
    .ite (fun _ => gentle_orphanService s) fun _ => .refl s
  have withdrawn : Gentle s t := (orphaned.trans (gentle_withdrawJobs ..)).then (txGiveUp_only ..) rfl
  have cleared : Gentle s u := withdrawn.then (setCtx_only ..) rfl
  exact cleared.then (only_pool _ _ u) rfl

theorem gentle_deferBlock (i : Fin 4) (s : State) : Gentle s (deferBlock i s) :=
  (((((blockEvent_only ..).gentle rfl).trans (gentle_releaseCtx i _)).then (only_deferral _ _) rfl).then (raise_only ..) rfl)

theorem gentle_enterAsking (i : Fin 4) (s : State) : Gentle s (enterAsking i s) :=
  .ite (fun _ => gentle_deferBlock i s) fun _ => .ite
    (fun _ => ((setCtx_only ..).gentle rfl).then (submitAsk_only i _) rfl) fun _ => (setCtx_only ..).gentle rfl

theorem gentle_submitErase (i : Fin 4) (b : Block) (s : State) : Gentle s (submitErase i b s) :=
  have changed := blockEvent_only .eraseSubmitted b s
  (changed.gentle rfl).trans (gentle_submit_staging (changed.activeSlot rfl) (.inl rfl))

theorem gentle_openOn (i : Fin 4) (b : Block) (s : State) : Gentle s (openOn i b s) :=
  .ite (fun _ => ((setCtx_only ..).gentle rfl).trans (gentle_submitErase i b _)) fun _ =>
    ((setCtx_only ..).gentle rfl).trans (gentle_enterAsking i _)

theorem gentle_openOne (s : State) : Gentle s (openOne s) := by
  unfold openOne
  split
  · split
    · exact gentle_openOn ..
    · exact .refl s
  · exact .refl s

theorem gentle_openContexts (s : State) : Gentle s (openContexts s) :=
  (((gentle_openOne s).trans (gentle_openOne _)).trans (gentle_openOne _)).trans (gentle_openOne _)

theorem gentle_fetchFollow (s : State) : Gentle s (fetchFollow s) :=
  ((submitHeld_only s).gentle rfl).trans (gentle_openContexts _)

theorem gentle_programNext (i : Fin 4) (s : State) : Gentle s (programNext i s) := by
  unfold programNext
  dsimp only
  split
  · exact .refl s
  · refine .ite (fun _ => ?_) fun _ => .refl s
    have changed (c : Ctx) := (setCtx_only i c s).next (blockEvent_only .programSubmitted (ctxOf s i).block _)
      (ps := [.fetch, .ctxs, .cat, .slots]) rfl rfl
    exact ((changed _).gentle rfl).trans (gentle_submit_staging ((changed _).activeSlot rfl) (.inl rfl))

theorem gentle_evaluate (i : Fin 4) (s : State) : Gentle s (evaluate i s) :=
  .ite (fun _ => .ite (fun _ => (((setCtx_only ..).gentle rfl).then (blockEvent_only ..) rfl).trans (gentle_submit nofun))
    fun _ => gentle_enterAsking i s) fun _ => .refl s

theorem gentle_serveEnded (i : Fin 4) (s : State) : Gentle s (serveEnded i s) :=
  ((updateCtx_only ..).gentle rfl).trans (gentle_evaluate i _)

theorem gentle_joinServe (src : Addr) (k : Key) (b : Block) (m : Mask) (s : State) : Gentle s (joinServe src k b m s) := by
  unfold joinServe
  split
  · exact .refl s
  · exact .ite (fun _ => .ite (fun _ => ((setCtx_only ..).gentle rfl).trans (gentle_submitErase ..)) fun _ => (setCtx_only ..).gentle rfl)
      fun _ => .refl s

theorem gentle_hearOffer (src : Addr) (k : Key) (b : Block) (m : Mask) (i : Fin 4) (s : State) : Gentle s (hearOffer src k b m i s) :=
  (hearOffer_only ..).gentle rfl

theorem gentle_fetchOffer (src : Addr) (k : Key) (b : Block) (m : Mask) (s : State) : Gentle s (fetchOffer src k b m s) :=
  ((Gentle.foldl (fun t i => gentle_hearOffer src k b m i t) s _).trans (gentle_joinServe ..)).trans (gentle_fetchFollow _)

theorem gentle_takeSegment (i : Fin 4) (g : Seg) (d : List Byte) (s : State) : Gentle s (takeSegment i g d s) :=
  .ite (fun _ => .refl s) fun _ => .ite (fun _ => .refl s) fun _ => .ite (fun _ => (only_overrun ..).gentle rfl) fun _ =>
    (((setCtx_only ..).gentle rfl).then (only_poolFree ..) rfl).trans (gentle_programNext ..)

theorem gentle_fetchSegment (k : Key) (b : Block) (g : Seg) (d : List Byte) (s : State) : Gentle s (fetchSegment k b g d s) := by
  unfold fetchSegment
  split
  · exact .refl s
  · rename_i i _
    refine .ite (fun _ => ?_) fun _ => .refl s
    have taken : Gentle s (takeSegment i g d (updateCtx i Ctx.heardSegment s)) :=
      ((updateCtx_only ..).gentle rfl).trans (gentle_takeSegment ..)
    exact .ite (fun _ => (taken.trans (gentle_serveEnded ..)).trans (gentle_fetchFollow _)) fun _ => taken

theorem gentle_askUnsent (i : Fin 4) (s : State) : Gentle s (askUnsent i s) :=
  .ite (fun _ => ((updateCtx_only ..).gentle rfl).trans (gentle_enterAsking ..)) fun _ => .refl s

theorem gentle_abandon (s : State) : Gentle s (abandon s) :=
  (Gentle.foldl (fun t i => .ite (fun _ => .refl t) fun _ => gentle_releaseCtx i t) s ctxIds).then (only_deferral ..) rfl

theorem gentle_cancelBuffer (k : Key) (b : Block) (i : OutBufId) (s : State) : Gentle s (cancelBuffer k b i s) := by
  unfold cancelBuffer
  split
  · exact .ite (fun _ => .ite (fun _ => (gentle_withdrawJobs ..).then (setBuf_only ..) rfl) fun _ => (setBuf_only ..).gentle rfl)
      fun _ => .refl s
  · exact .ite (fun _ => .ite (fun _ => ((txGiveUp_only ..).gentle rfl).then (setBuf_only ..) rfl)
      fun _ => ((txWithdraw_only ..).gentle rfl).then (setBuf_only ..) rfl) fun _ => .refl s
  · exact .refl s

theorem gentle_cancelEntry (k : Key) (b : Block) (s : State) : Gentle s (cancelEntry k b s) :=
  (((((removeEntry_only ..).gentle rfl).then (txGiveUp_only ..) rfl).trans (gentle_cancelBuffer ..)).trans
    (gentle_cancelBuffer ..)).then (offerNext_only _) rfl

theorem gentle_cancelEntries (p : ServeEntry → Bool) (s : State) : Gentle s (cancelEntries p s) := by
  unfold cancelEntries
  refine Gentle.foldl (fun t e => ?_) s _
  exact gentle_cancelEntry e.key e.block t

theorem gentle_cancelKey (k : Option Key) (s : State) : Gentle s (cancelKey k s) := by
  cases k with
  | none => exact .refl s
  | some k => exact gentle_cancelEntries ..

theorem gentle_fillBuffer (s : State) : Gentle s (fillBuffer s) := by
  unfold fillBuffer
  dsimp only
  split
  · refine .ite (fun _ => ?_) fun _ => .refl s
    split
    · exact .ite (fun _ => (((setBuf_only ..).gentle rfl).then (updateEntry_only ..) rfl).trans (gentle_submit nofun))
        fun _ => gentle_cancelEntry ..
    · exact gentle_cancelEntry ..
  · exact .refl s

theorem gentle_serveAdvance (s : State) : Gentle s (serveAdvance s) :=
  ((gentle_fillBuffer s).trans (gentle_fillBuffer _)).then (endServe_only _) rfl

theorem gentle_offerReport (sent : Bool) (k : Key) (b : Block) (s : State) : Gentle s (offerReport sent k b s) :=
  .ite (fun _ => ((updateEntry_only ..).gentle rfl).trans (gentle_serveAdvance _))
    fun _ => ((removeEntry_only ..).gentle rfl).then (offerNext_only _) rfl

theorem gentle_segmentReport (sent : Bool) (i : OutBufId) (s : State) : Gentle s (segmentReport sent i s) :=
  Gentle.trans (.ite (fun _ => ((setBuf_only ..).gentle rfl).then (only_served ..) rfl) fun _ => (setBuf_only ..).gentle rfl)
    (gentle_serveAdvance _)

theorem gentle_readResult (i : OutBufId) (d : Option (List Byte)) (s : State) : Gentle s (readResult i d s) := by
  have freed : Gentle s (serveAdvance (setBuf i .free s)) := ((setBuf_only ..).gentle rfl).trans (gentle_serveAdvance _)
  unfold readResult
  split
  · exact .ite (fun _ => ((txSubmit_only ..).gentle rfl).then (setBuf_only ..) rfl) fun _ => freed
  · exact freed
  · exact .refl s

/-! ## Catalogue -/

theorem gentle_blockVerified (b : Block) (m : Option Manifest) (s : State) : Gentle s (blockVerified b m s) := by
  unfold blockVerified
  split
  · exact .refl s
  · extract_lets t u v
    have passed : Gentle s t := (blockEvent_only ..).gentle rfl
    have listed : Gentle s u := by
      unfold u
      split
      · exact passed.then (updateStaging_only ..) rfl
      · exact passed
    have marked : Gentle s v := .ite (fun _ => listed) fun _ => listed.trans (gentle_addWork rfl _)
    exact .ite (fun _ => (marked.then (setStagingState_only ..) rfl).then (raise_only ..) rfl) fun _ => marked

theorem gentle_loadUndo (s : State) : Gentle s (loadUndo s) :=
  (((setStagingState_only ..).gentle rfl).trans (gentle_cancelKey ..)).then (updateStaging_only ..) rfl

theorem gentle_procedureFailed (s : State) : Gentle s (procedureFailed s) := by
  have ended : Gentle s (setProcedure .none s) := (setProcedure_only ..).gentle rfl
  unfold procedureFailed
  dsimp only
  split
  · exact .refl s
  · exact ended
  · exact (ended.then (setStagingState_only ..) rfl).then (answer_only ..) rfl
  · exact ended.then (answer_only ..) rfl
  · exact ended.then (answer_only ..) rfl
  · exact (ended.trans (gentle_loadUndo _)).then (answer_only ..) rfl
  · exact (setProcedure_only ..).gentle rfl

theorem gentle_frozenBegun (s : State) : Gentle s (frozenBegun s) := by
  refine gentle_of_fewer rfl rfl rfl (waitingGuarded_le_of_sublist rfl ?_)
  unfold waitingJobs
  exact (List.Sublist.refl _).append (List.nil_sublist _)

theorem gentle_setFrozen (s : State) : Gentle s (setFrozen s) :=
  ((gentle_frozenBegun s).trans (gentle_procedureFailed _)).then (closeGate_only _) rfl

theorem gentle_addAppend (r : CommitRecord) (s : State) : Gentle s (addAppend r s) := by
  unfold addAppend
  refine .ite (fun _ => ((raise_only ..).gentle rfl).trans (gentle_setFrozen _)) fun _ => .ite (fun _ => ?_) fun _ => ?_
  · exact ((only_appends _ _ _ s).gentle rfl).trans (gentle_addWork rfl _)
  · exact (((only_appends _ _ _ s).gentle rfl).trans (gentle_addWork rfl _)).trans (gentle_addWork rfl _)

theorem gentle_dropMarks (x : Slot) (s : State) : Gentle s (dropMarks x s) := by
  let fewer : State := { s with cat := { s.cat with work := s.cat.work.filter (fun j => !isMarkOf x j) } }
  have dropped : (waitingJobs fewer).Sublist (waitingJobs s) := (List.Sublist.refl _).append List.filter_sublist
  have gentle : Gentle s fewer := gentle_of_fewer rfl rfl rfl (waitingGuarded_le_of_sublist rfl dropped)
  exact gentle.trans (gentle_withdrawJobs ..)

theorem gentle_startReclaim (k : Key) (s : State) : Gentle s (startReclaim k s) := by
  unfold startReclaim
  extract_lets old s1 s2 s3 s4 s5 s6
  have h1 : Gentle s s1 := (((setProcedure_only ..).gentle rfl).then (setStagingState_only ..) rfl).then (updateStaging_only ..) rfl
  have h4 : Gentle s s4 := ((h1.trans (gentle_abandon s1)).trans (gentle_cancelKey old s2)).then (updateStaging_only ..) rfl
  have h6 : Gentle s s6 := (h4.trans (gentle_dropMarks ..)).trans (gentle_addWork rfl s5)
  exact h6.trans (gentle_addAppend _ s6)

theorem gentle_takeUp (k : Key) (src : Addr) (s : State) : Gentle s (takeUp k src s) := by
  have kept (o : Option (Key × Addr)) : Gentle s (setTarget o s) := (setTarget_only ..).gentle rfl
  unfold takeUp
  dsimp only
  refine .ite (fun _ => gentle_startReclaim k s) fun _ => .ite (fun _ => ?_) fun _ => .refl s
  split
  · exact kept _
  · exact .ite (fun _ => kept _) fun _ => .refl s

theorem gentle_judge (k : Key) (src : Addr) (s : State) : Gentle s (judge k src s) :=
  .ite (fun _ => .refl s) fun _ => .ite (fun _ => .refl s) fun _ => .ite (fun _ => (raise_only ..).gentle rfl) fun _ =>
    .ite (fun _ => gentle_takeUp k src s) fun _ => .refl s

theorem gentle_judgeTarget (s : State) : Gentle s (judgeTarget s) := by
  unfold judgeTarget
  split
  · exact .refl s
  · exact .ite (fun _ => .refl s) fun _ => ((setTarget_only ..).gentle rfl).trans (gentle_judge ..)

theorem gentle_reclaimAppended (s : State) : Gentle s (reclaimAppended s) := by
  have adopted (d : BitVec 32) : Gentle s (raise .targetAdopted d s) := (raise_only ..).gentle rfl
  have settled (d : BitVec 32) : Gentle s (fetchFollow (setTarget none (setStagingState .fetching (setProcedure .none
      (raise .targetAdopted d s))))) :=
    ((((adopted d).then (setProcedure_only ..) rfl).then (setStagingState_only ..) rfl).then (setTarget_only ..) rfl).trans
      (gentle_fetchFollow _)
  unfold reclaimAppended
  dsimp only
  split
  · exact .ite (fun _ => (((adopted _).then (updateStaging_only ..) rfl).then (setTarget_only ..) rfl).trans (gentle_addAppend ..))
      fun _ => settled _
  · exact settled _

theorem gentle_floorAppended (s : State) : Gentle s (floorAppended s) :=
  (((setProcedure_only ..).gentle rfl).then (answer_only ..) rfl).trans (gentle_judgeTarget _)

theorem gentle_loadEndAppended (s : State) : Gentle s (loadEndAppended s) :=
  (((((setProcedure_only ..).gentle rfl).then (setStagingState_only ..) rfl).then (raise_only ..) rfl).then (answer_only ..) rfl).trans
    (gentle_judgeTarget _)

/-! ## Line -/

theorem gentle_setLink (l : LinkState) (s : State) : Gentle s (setLink l s) := (setLink_only ..).gentle rfl

theorem gentle_enterJoining (s : State) : Gentle s (enterJoining s) :=
  ((gentle_setLink .joining s).then (only_timers ..) rfl).trans (gentle_fetchFollow _)

theorem gentle_enterActive (s : State) : Gentle s (enterActive s) := by
  have begun : Gentle s (activeBegun s) :=
    ((gentle_setLink .active s).then (only_timers none _ _) rfl).then (only_watch _ _ rfl) rfl
  exact begun.trans (gentle_fetchFollow _)

theorem gentle_quiet (s : State) : Gentle s (quiet s) :=
  ((only_watch { s.notice with periodicLeft := none, changed := false, owed := false } s rfl).gentle rfl |>.then
    (clearQueue_only _) rfl).trans (gentle_cancelEntries _ _)

theorem gentle_enterListenOnly (timer : ListenTimer) (s : State) : Gentle s (enterListenOnly timer s) := by
  have begun : Gentle s (listenBegun timer s) := gentle_of_fewer rfl rfl rfl (Nat.le_refl _)
  exact begun.trans (gentle_quiet _)

theorem gentle_enterClash (s : State) : Gentle s (enterClash s) :=
  ((gentle_setLink .clash s).then (only_timers ..) rfl).trans (gentle_quiet _)

theorem gentle_attemptReport (sent : Bool) (e : TxEntry) (s : State) : Gentle s (attemptReport sent e s) := by
  unfold attemptReport
  split
  · exact .ite (fun _ => gentle_enterActive s) fun _ => .refl s
  · exact (publishReport_only ..).gentle rfl
  · extract_lets t
    have marked : Gentle s t := .ite (fun _ => (markAsked_only ..).gentle rfl) fun _ => .refl s
    exact .ite (fun _ => marked.trans (.ite (fun _ => (askSent_only ..).gentle rfl) fun _ => gentle_askUnsent ..)) fun _ => marked
  · exact .ite (fun _ => gentle_offerReport ..) fun _ => .refl s
  · exact gentle_segmentReport ..
  · exact .refl s

theorem gentle_givenUpReport (e : TxEntry) (s : State) : Gentle s (givenUpReport e s) := by
  unfold givenUpReport
  split
  · exact ((setBuf_only ..).gentle rfl).trans (gentle_serveAdvance _)
  · exact .refl s

theorem gentle_loseContention (e : TxEntry) (s : State) : Gentle s (loseContention e s) := by
  unfold loseContention
  refine .ite (fun _ => ?_) fun _ => (lineLeft_only ..).gentle rfl
  have left := ((lineLeft_only (s.line.queue.filter (fun x => !x.onLine)) s).gentle rfl).trans (gentle_givenUpReport e _)
  dsimp only
  split
  · exact left.trans (gentle_fetchFollow _)
  · exact left

theorem gentle_endAttempt (echoed : Bool) (e : TxEntry) (s : State) : Gentle s (endAttempt echoed e s) := by
  unfold endAttempt
  extract_lets decided line s1 s2 s3
  have counted : Gentle s s1 := gentle_of_fewer rfl rfl rfl (Nat.le_refl _)
  have missed : Gentle s s2 := counted.trans (.ite (fun _ => gentle_enterListenOnly ..) fun _ => .refl _)
  have reported : Gentle s s3 := missed.trans (.ite (fun _ => gentle_attemptReport ..) fun _ =>
    .ite (fun _ => gentle_givenUpReport ..) fun _ => .refl _)
  split
  · exact reported.then (submitOwed_only _) rfl
  · exact reported.trans (gentle_fetchFollow _)
  · exact reported

theorem gentle_clashFrame (s : State) : Gentle s (clashFrame s) := by
  have ended : Gentle s (frameEnds false s) := (frameEnds_only ..).gentle rfl
  unfold clashFrame
  dsimp only
  split
  · exact ended.trans (gentle_enterClash _)
  · exact ended.trans (gentle_enterClash _)
  · exact ended.trans (gentle_enterClash _)
  · exact ended

theorem gentle_receiveFrame {deliver : State → State} (h : ∀ t, Gentle t (deliver t)) (src : Addr) (format family : Bool) (s : State) :
    Gentle s (receiveFrame src format family deliver s) := by
  have touchedPeer : Gentle s (touchPeer src (frameEnds (linkEchoes s.line.link) s)) :=
    ((frameEnds_only ..).gentle rfl).then (touchPeer_only ..) rfl
  exact .ite (fun _ => .refl s) fun _ => .ite (fun _ => (countReceiveError_only ..).gentle rfl) fun _ =>
    .ite (fun _ => gentle_clashFrame s) fun _ => .ite (fun _ => touchedPeer.trans (h _)) fun _ => touchedPeer

theorem gentle_releaseCandidate (src : Addr) (k : Key) (count : Byte) (s : State) : Gentle s (releaseCandidate src k count s) :=
  .ite (fun _ => gentle_judge ..) fun _ => .refl s

theorem gentle_deliverNotice (src : Addr) (n : NoticeFrame) (s : State) : Gentle s (deliverNotice src n s) := by
  refine .ite (fun _ => ?_) fun _ => .refl s
  have refreshed : Gentle s (refreshPeer src n s) := (updatePeer_only ..).gentle rfl
  exact refreshed.trans (.foldl (fun t k => gentle_judge k src t) _ _)

/-! ## Rebuild and load -/

theorem gentle_rebuildEnd (s : State) : Gentle s (rebuildEnd s) := by
  let ended : State := { s with startUp := { s.startUp with stage := .running, rebuild := .idle } }
  have gentle : Gentle s ended := ⟨rfl, Nat.le_refl _, fun _ => id, fun v hv => ⟨v, hv, rfl, rfl⟩, fun _ => .inr rfl⟩
  exact .ite (fun _ => gentle) fun _ => gentle.trans (gentle_enterJoining ended)

theorem gentle_tryRebuildEnd (s : State) : Gentle s (tryRebuildEnd s) := .ite (fun _ => gentle_rebuildEnd s) fun _ => .refl s

theorem gentle_setRebuild (r : Rebuild) (s : State) : Gentle s (setRebuild r s) := (setRebuild_only ..).gentle rfl

theorem gentle_finishStaging (s : State) : Gentle s (finishStaging s) :=
  .ite (fun _ => (((gentle_setRebuild .repairs s).then (setStagingState_only ..) rfl).then (raise_only ..) rfl).trans
    (gentle_tryRebuildEnd _)) fun _ => (gentle_setRebuild .repairs s).trans (gentle_tryRebuildEnd _)

theorem gentle_submitVerify (role : Role) (b : Block) (s : State) : Gentle s (submitVerify role b s) :=
  .ite (fun _ => (gentle_setRebuild ..).trans (gentle_submit nofun)) fun _ => gentle_setRebuild ..

theorem gentle_rebuildFrom (role : Role) (from_ : Nat) (s : State) : Gentle s (rebuildFrom role from_ s) := by
  unfold rebuildFrom
  split
  · exact gentle_submitVerify ..
  · split
    · exact gentle_finishStaging s
    · have rated : Gentle s { s with cat := { s.cat with activeState := rebuiltActive s } } := (only_activeState ..).gentle rfl
      dsimp only
      split
      · exact rated.trans (gentle_submitVerify ..)
      · exact rated.trans (gentle_finishStaging _)

theorem gentle_repairMark (role : Role) (b : Block) (s : State) : Gentle s (repairMark role b s) :=
  .ite (fun _ => ((only_repairs ..).gentle rfl).trans (gentle_addWork rfl _)) fun _ => .refl s

theorem gentle_rebuildResult (pass : Bool) (b : Block) (m : Option Manifest) (s : State) : Gentle s (rebuildResult pass b m s) := by
  unfold rebuildResult
  split
  · rename_i role at_ _
    extract_lets u t
    have verified : Gentle s u := (updateRole_only ..).gentle rfl
    have rated : Gentle s t := by
      refine .ite (fun _ => ?_) fun _ => .ite (fun _ => (raise_only ..).gentle rfl) fun _ => .refl s
      split
      · exact (verified.then (updateRole_only ..) rfl).trans (gentle_repairMark ..)
      · exact verified.trans (gentle_repairMark ..)
    exact rated.trans (gentle_rebuildFrom ..)
  · exact .refl s

theorem gentle_rebuildResume (s : State) : Gentle s (rebuildResume s) := by
  unfold rebuildResume
  split
  · exact gentle_submitVerify ..
  · exact gentle_tryRebuildEnd s
  · exact .refl s

theorem gentle_clearLoadMask (b : Block) (s : State) : Gentle s (clearLoadMask b s) :=
  .ite (fun _ => ((setLoad_only ..).gentle rfl).then (setLoad_only ..) rfl) fun _ => (setLoad_only ..).gentle rfl

theorem gentle_loadProgram (b : Block) (g : Seg) (d : List Byte) (s : State) : Gentle s (loadProgram b g d s) :=
  have changed := blockEvent_only .programSubmitted b s
  (changed.gentle rfl).trans (gentle_submit_staging (changed.activeSlot rfl) (.inl rfl))

theorem gentle_loadErase (b : Block) (s : State) : Gentle s (loadErase b s) := by
  have changed : Gentle s (blockEvent .eraseSubmitted b (clearLoadMask b s)) :=
    (gentle_clearLoadMask b s).then (blockEvent_only ..) rfl
  exact changed.trans (gentle_submit_staging changed.active (.inl rfl))

theorem gentle_loadErased (r : EraseResult) (b : Block) (s : State) : Gentle s (loadErased r b s) := by
  cases r with
  | blank =>
    unfold loadErased
    dsimp only
    split
    · exact ((blockEvent_only ..).gentle rfl).trans (gentle_loadProgram ..)
    · exact (blockEvent_only ..).gentle rfl
  | dead => exact ((blockEvent_only ..).gentle rfl).then (answer_only ..) rfl
  | isProtected => exact ((blockEvent_only ..).gentle rfl).then (answer_only ..) rfl

theorem gentle_loadProgrammed (r : ProgramResult) (b : Block) (g : Seg) (d : List Byte) (s : State) :
    Gentle s (loadProgrammed r b g d s) := by
  cases r with
  | done =>
    have masked : Gentle s (setLoadMask b (loadMask s b ||| segBit g) (blockEvent .programDone b s)) :=
      ((blockEvent_only ..).gentle rfl).then (setLoad_only ..) rfl
    exact Gentle.trans (.ite (fun _ => masked.then (setLoad_only ..) rfl) fun _ => masked) ((answer_only ..).gentle rfl)
  | relocated => exact (((blockEvent_only ..).gentle rfl).trans (gentle_clearLoadMask ..)).trans (gentle_loadProgram ..)
  | dead => exact (((blockEvent_only ..).gentle rfl).then (setLoad_only ..) rfl).then (answer_only ..) rfl
  | isProtected => exact ((blockEvent_only ..).gentle rfl).then (answer_only ..) rfl

theorem gentle_loadEndFail (b : Nat) (cause : Byte) (s : State) : Gentle s (loadEndFail b cause s) :=
  (gentle_loadUndo s).then (answer_only ..) rfl

theorem gentle_loadEndVerify (w : LoadEndWork) (s : State) : Gentle s (loadEndVerify w s) :=
  .ite (fun _ => (((setCommand_only ..).gentle rfl).then (blockEvent_only ..) rfl).trans (gentle_submit nofun))
    fun _ => gentle_loadEndFail ..

theorem gentle_loadEndAppend (k : Key) (s : State) : Gentle s (loadEndAppend k s) :=
  ((setProcedure_only ..).gentle rfl).trans (gentle_addAppend ..)

theorem gentle_loadEndPassed (w : LoadEndWork) (s : State) : Gentle s (loadEndPassed w s) := by
  unfold loadEndPassed
  refine .ite (fun _ => gentle_loadEndFail ..) fun _ => .ite (fun _ => (gentle_loadUndo s).then (answer_only ..) rfl) fun _ => ?_
  split
  · exact .ite (fun _ => (((answer_only ..).gentle rfl).then (setTarget_only ..) rfl).trans (gentle_startReclaim ..))
      fun _ => gentle_loadEndAppend ..
  · exact gentle_loadEndAppend ..

theorem gentle_loadEndVerified (pass : Bool) (m : Option Manifest) (r : BitVec 32) (b : Block) (s : State) :
    Gentle s (loadEndVerified pass m r b s) := by
  unfold loadEndVerified
  split
  · exact .ite (fun _ => .ite (fun _ => (gentle_blockVerified ..).trans (gentle_loadEndPassed ..))
      fun _ => (gentle_blockVerified ..).trans (gentle_loadEndVerify ..))
      fun _ => ((blockEvent_only ..).gentle rfl).trans (gentle_loadEndFail ..)
  · exact .refl s

theorem gentle_checksumNext (role : Role) (first count : Nat) (done : List CheckLine) (s : State) :
    Gentle s (checksumNext role first count done s) :=
  ((setCommand_only ..).gentle rfl).trans (gentle_submit nofun)

theorem gentle_checksumLine (line : CheckLine) (s : State) : Gentle s (checksumLine line s) := by
  unfold checksumLine
  split
  · exact .ite (fun _ => gentle_checksumNext ..) fun _ => (answer_only ..).gentle rfl
  · exact .refl s

theorem readAnswer_only (r : Resolved) (d : Option (List Byte)) (s : State) : Only [.port, .answer] s (readAnswer r d s) := by
  unfold readAnswer
  split
  · exact answer_only ..
  · cases d <;> exact answer_only ..

end Sys2Proof.Machine
end

section
/-! SUPPORT. ACTIVE-SLOT LAW: what every command leaves of it. `Outcome` says how a command's event ends: PROTECTED jobs ended
and the law kept, or the part reset. It holds of every command; the law over steps follows. -/

namespace Sys2Proof.Machine

variable {a s t u : State} {v : Service} {strict : Bool}

/-! ## Results -/

theorem gentle_jobReturned (i : Fin 4) (s : State) : Gentle s (jobReturned i s) := (updateCtx_only ..).gentle rfl

theorem gentle_endCtx (i : Fin 4) (s : State) : Gentle s (endCtx i s) := (gentle_releaseCtx i s).trans (gentle_fetchFollow _)

theorem gentle_fetchBlank (i : Fin 4) (s : State) : Gentle s (fetchBlank i s) :=
  .ite (fun _ => (gentle_enterAsking i s).trans (gentle_fetchFollow _))
    fun _ => ((gentle_programNext i s).trans (gentle_evaluate i _)).trans (gentle_fetchFollow _)

theorem gentle_fetchErased (r : EraseResult) (i : Fin 4) (b : Block) (s : State) : Gentle s (fetchErased r i b s) := by
  have returned (e : BlockEvent) : Gentle s (blockEvent e b (jobReturned i s)) :=
    (gentle_jobReturned i s).then (blockEvent_only ..) rfl
  cases r
  · exact (returned .eraseBlank).trans (gentle_fetchBlank ..)
  · exact (returned .eraseDead).trans (gentle_endCtx ..)
  · exact (returned .isProtected).trans (gentle_endCtx ..)

theorem gentle_orphanErased (r : EraseResult) (x : Slot) (b : Block) (s : State) : Gentle s (orphanErased r x b s) :=
  .ite (fun _ => (blockEvent_only ..).gentle rfl) fun _ => .refl s

theorem gentle_fetchProgrammed (r : ProgramResult) (i : Fin 4) (b : Block) (g : Seg) (s : State) :
    Gentle s (fetchProgrammed r i b g s) := by
  have returned (e : BlockEvent) : Gentle s (blockEvent e b (jobReturned i s)) :=
    (gentle_jobReturned i s).then (blockEvent_only ..) rfl
  cases r
  · have freed := ((returned .programDone).then (updateCtx_only i (fun c => { c with programmed := c.programmed ||| segBit g }) _)
      rfl).then (freeHead_only i _) rfl
    exact ((freed.trans (gentle_programNext ..)).trans (gentle_evaluate ..)).trans (gentle_fetchFollow _)
  · exact ((returned .programRelocated).then (updateCtx_only ..) rfl).trans (gentle_programNext ..)
  · exact (returned .programDead).trans (gentle_endCtx ..)
  · exact (returned .isProtected).trans (gentle_endCtx ..)

theorem gentle_fetchVerified (pass : Bool) (m : Option Manifest) (i : Fin 4) (b : Block) (s : State) :
    Gentle s (fetchVerified pass m i b s) :=
  .ite (fun _ => ((gentle_jobReturned i s).trans (gentle_blockVerified ..)).trans (gentle_endCtx ..))
    fun _ => (((gentle_jobReturned i s).then (blockEvent_only ..) rfl).then (updateCtx_only ..) rfl).trans (gentle_submitErase ..)

theorem gentle_programReturn (v : Service) (r : ProgramResult) (s : State) : Gentle s (programReturn v r s) := by
  unfold programReturn
  split
  · split
    · exact .ite (fun _ => (freeInFlight_only s).gentle rfl) fun _ => gentle_fetchProgrammed ..
    · exact gentle_loadProgrammed ..
    · exact .refl s
    · exact .refl s
  · exact .refl s

theorem gentle_verifyReturn (v : Service) (pass : Bool) (m : Option Manifest) (r : BitVec 32) (s : State) :
    Gentle s (verifyReturn v pass m r s) := by
  unfold verifyReturn
  split
  · split
    · exact .ite (fun _ => .refl s) fun _ => gentle_fetchVerified ..
    · exact gentle_loadEndVerified ..
    · exact gentle_rebuildResult ..
    · exact .refl s
  · exact .refl s

/-! ## What WIPE does -/

theorem gentle_wipeStep (step : WipeStep) (failed : Bool) (s : State) : Gentle s (wipeStep step failed s) := by
  have opened : Gentle s (setProcedure (.wipe step failed) s) := (setProcedure_only ..).gentle rfl
  cases step with
  | drain => exact opened
  | control i => exact opened.trans (gentle_addWork rfl _)
  | block x b => exact opened.trans (gentle_submit nofun)
  | record => exact opened.trans (gentle_addWork rfl _)
  | void j => exact opened.trans (gentle_addWork rfl _)

/-- The start-up reads stay over, or the part has been reset (R192, R210). -/
def StaysUp (s u : State) : Prop := (ReadsOver s → ReadsOver u) ∨ ∃ p r, u = deviceReset p r

theorem Gentle.staysUp (h : Gentle s u) : StaysUp s u := .inl h.over_

theorem Gentle.thenUp (h : Gentle s t) (k : StaysUp t u) : StaysUp s u := k.imp_left fun k over_ => k (h.over_ over_)

theorem wipeNext_cases (s : State) : Gentle s (wipeNext s) ∨ wipeNext s = deviceReset s.pins s := by
  unfold wipeNext
  split
  · split
    · exact .inl (gentle_wipeStep ..)
    · exact .inr rfl
  · exact .inl (.refl s)

theorem staysUp_wipeNext (s : State) : StaysUp s (wipeNext s) :=
  (wipeNext_cases s).imp Gentle.over_ fun reset => ⟨_, _, reset⟩

theorem gentle_wipeLink (s : State) : Gentle s (wipeLink s) := by
  unfold wipeLink
  split
  · exact gentle_enterListenOnly ..
  · exact gentle_enterListenOnly ..
  · exact gentle_of_fewer rfl rfl rfl (Nat.le_refl _)
  · exact .refl s

/-! ## The ends of services -/

theorem staysUp_eraseReturn (v : Service) (r : EraseResult) (s : State) : StaysUp s (eraseReturn v r s) := by
  unfold eraseReturn
  split
  · split
    · exact (Gentle.ite (fun _ => gentle_orphanErased ..) fun _ => gentle_fetchErased ..).staysUp
    · exact (gentle_loadErased ..).staysUp
    · exact staysUp_wipeNext s
    · exact (Gentle.refl s).staysUp
  · exact (Gentle.refl s).staysUp

theorem staysUp_deadReturn (v : Service) (s : State) : StaysUp s (deadReturn v s) := by
  have raised (d : BitVec 32) : Gentle s (raise .slotDead d s) := (raise_only ..).gentle rfl
  unfold deadReturn
  split
  · exact (raised _).thenUp (staysUp_eraseReturn ..)
  · exact ((raised _).trans (gentle_programReturn ..)).staysUp
  · exact (Gentle.refl s).staysUp

theorem staysUp_controlFailed (c : ControlUnit) (j : Job) (s : State) : StaysUp s (controlFailed c j s) := by
  let faulted : State := recordFault c j s
  have emptied : Gentle s faulted := by
    refine gentle_of_fewer rfl rfl rfl (waitingGuarded_le_of_sublist rfl ?_)
    have same (l : List Job) : l.Sublist l := List.Sublist.refl l
    exact (((((List.nil_sublist _).append (same s.flash.fetchQ)).append (same s.flash.serveQ)).append (same s.flash.hostQ)).append
      (same s.cat.work))
  change StaysUp s (if wipeDraining s then wipeNext faulted else if wipeOwnJob s then wipeNext (setFrozen faulted)
    else rebuildResume (setFrozen faulted))
  split
  · exact emptied.thenUp (staysUp_wipeNext _)
  · split
    · exact (emptied.trans (gentle_setFrozen _)).thenUp (staysUp_wipeNext _)
    · exact ((emptied.trans (gentle_setFrozen _)).trans (gentle_rebuildResume _)).staysUp

theorem staysUp_switchAppended (revert : Bool) (s : State) : StaysUp s (switchAppended revert s) := by
  unfold switchAppended
  extract_lets staging t x
  refine .inl fun over_ => (gentle_judgeTarget _).over_ ?_
  exact over_

theorem staysUp_appendDone (r : CommitRecord) (s : State) : StaysUp s (appendDone r s) := by
  let viewed : State := { s with cat := { s.cat with recorded := r } }
  have gentle : Gentle s viewed := gentle_of_fewer rfl rfl rfl (Nat.le_refl _)
  unfold appendDone
  dsimp only
  split
  · exact gentle.thenUp (gentle_reclaimAppended _).staysUp
  · exact gentle.thenUp (staysUp_switchAppended ..)
  · exact gentle.thenUp (gentle_floorAppended _).staysUp
  · exact ((gentle.then (setProcedure_only ..) rfl).then (answer_only ..) rfl).staysUp
  · exact gentle.thenUp (gentle_loadEndAppended _).staysUp
  · exact gentle.staysUp

theorem staysUp_controlDone (j : Job) (s : State) : StaysUp s (controlDone j s) := by
  unfold controlDone
  split
  · exact staysUp_wipeNext s
  · split
    · exact staysUp_appendDone ..
    · unfold repairReturned
      split
      · exact (((only_repairs ..).gentle rfl).trans (gentle_rebuildResume _)).staysUp
      · exact (Gentle.refl s).staysUp
    · exact (Gentle.refl s).staysUp

/-! ## How an event ends -/

/-- Before its end an event has kept the law, or reset the part. -/
def Lawful (strict : Bool) (s u : State) : Prop :=
  (Honest strict u ∧ (ReadsOver s → ReadsOver u)) ∨ ∃ p r, u = deviceReset p r

theorem endService_deviceReset (p : Pins) (r : State) : endService (deviceReset p r) = deviceReset p r := rfl

/-- Whatever ends a service and keeps the part up is lawful. -/
theorem StaysUp.endService (h : StaysUp s u) : Lawful strict s (endService u) := by
  rcases h with h | ⟨p, r, rfl⟩
  · obtain ⟨_, honest, _, over_⟩ := endService_law u
    exact .inl ⟨honest strict, over_ ∘ h⟩
  · exact .inr ⟨p, r, endService_deviceReset p r⟩

theorem Gentle.lawful (h : Gentle s u) (honest : Honest strict s) : Lawful strict s u := .inl ⟨h.honest strict honest, h.over_⟩

theorem Gentle.thenLawful (h : Gentle s t) (k : Lawful strict t u) : Lawful strict s u :=
  k.imp_left fun ⟨honest, over_⟩ => ⟨honest, over_ ∘ h.over_⟩

/-- The job in service is not one that the law would have ended (R25). -/
abbrev Spared (strict : Bool) (s : State) (v : Service) : Prop := strict = true → guardedSlot v.job ≠ some s.cat.activeSlot

theorem lawful_setService (spared : Spared strict s v) (free : v.op ≠ .protectedReturn) : Lawful strict s (setService v s) := by
  refine .inl ⟨fun w hw => ?_, id⟩
  obtain rfl : v = w := Option.some.inj hw
  exact ⟨fun h => absurd h free, fun h names => absurd names (spared h)⟩

theorem lawful_retire (spared : Spared strict s v) : Lawful strict s (retire v s) := by
  unfold retire
  split
  · exact lawful_setService (v := { v with op := _ }) spared nofun
  · exact (staysUp_deadReturn v s).endService

theorem lawful_attemptFailed (spared : Spared strict s v) (n : Nat) : Lawful strict s (attemptFailed v n s) := by
  unfold attemptFailed
  split
  · exact lawful_setService (v := { v with op := _ }) spared nofun
  · split
    · exact (staysUp_controlFailed ..).endService
    · exact lawful_retire spared

theorem lawful_attemptPassed (v : Service) (s : State) : Lawful strict s (attemptPassed v s) := by
  unfold attemptPassed
  split
  · exact (staysUp_controlDone ..).endService
  · exact (gentle_programReturn ..).staysUp.endService
  · exact (staysUp_eraseReturn ..).endService

theorem lawful_entryFailed (spared : Spared strict s v) (p : Fin 8) : Lawful strict s (entryFailed v p s) := by
  let voided : State := { s with flash := { s.flash with spares := s.flash.spares.set p .void } }
  have gentle : Gentle s voided := (only_spares _ s).gentle rfl
  exact (gentle.then (raise_only .arrayFault (faultDetail 513 (jobCode v.job)) voided) rfl).thenLawful (lawful_retire spared)

theorem lawful_entryPassed (spared : Spared strict s v) (honest : Honest strict s) (p : Fin 8) :
    Lawful strict s (entryPassed v p s) := by
  unfold entryPassed
  split
  · rename_i x b _
    let valid : State := { s with flash := { s.flash with spares := s.flash.spares.set p (.valid x b) } }
    have gentle : Gentle s valid := (only_spares _ s).gentle rfl
    exact (gentle.then (raise_only .unitRetired (retiredDetail (currentUnit s.flash.spares x b) (518 + p.val)) valid) rfl).thenLawful
      (lawful_setService (v := { v with op := .erase 0 }) spared nofun)
  · exact .inl ⟨honest, id⟩

theorem gentle_leaveContent (v : Service) (left : Left) (s : State) : Gentle s (leaveContent v left s) :=
  (leaveContent_only ..).gentle rfl

theorem lawful_eraseEnds (spared : Spared strict s v) (n : Nat) (left : Left) : Lawful strict s (eraseEnds v n left s) := by
  refine (gentle_leaveContent v left s).thenLawful ?_
  unfold eraseEnds
  dsimp only
  split
  · exact lawful_attemptPassed ..
  · exact lawful_attemptFailed (s := leaveContent v left s) spared n

theorem lawful_entryEnds (spared : Spared strict s v) (honest : Honest strict s) (p : Fin 8) (left : Left) :
    Lawful strict s (entryEnds v p left s) := by
  refine (gentle_leaveContent v left s).thenLawful ?_
  unfold entryEnds
  dsimp only
  split
  · exact lawful_entryPassed (s := leaveContent v left s) spared honest p
  · exact lawful_entryFailed (s := leaveContent v left s) spared p

theorem lawful_segmentEnds (spared : Spared strict s v) (honest : Honest strict s) (left : Left) :
    Lawful strict s (segmentEnds v left s) := by
  unfold segmentEnds
  split
  · refine (gentle_leaveContent v left s).thenLawful ?_
    dsimp only
    split
    · exact (gentle_programReturn ..).staysUp.endService
    · exact lawful_retire (s := leaveContent v left s) spared
  · exact .inl ⟨honest, id⟩

theorem gentle_nodeReturn (done : Bool) (f : BitVec 16) (s : State) : Gentle s (nodeReturn done f s) :=
  .ite (fun _ => (answer_only ..).gentle rfl) fun _ => ((raise_only ..).gentle rfl).then (answer_only ..) rfl

theorem gentle_overtimeFault (v : Service) (s : State) : Gentle s (overtimeFault v s) := (raise_only ..).gentle rfl

theorem lawful_mainOvertime (spared : Spared strict s v) {left : Left} (h : mainOvertime v left s = some u) :
    Lawful strict s u := by
  have faulted : Gentle s (overtimeFault v (leaveContent v left s)) :=
    (gentle_leaveContent v left s).trans (gentle_overtimeFault ..)
  unfold mainOvertime at h
  dsimp only at h
  split at h
  · cases h
    exact faulted.thenLawful (lawful_retire (s := overtimeFault v (leaveContent v left s)) spared)
  · cases h
    exact ((gentle_leaveContent v left s).trans (gentle_nodeReturn ..)).staysUp.endService
  · cases h
    exact (faulted.trans (gentle_verifyReturn ..)).staysUp.endService
  · cases h
    exact (faulted.trans (gentle_readResult ..)).staysUp.endService
  · split at h
    · cases h
      exact (faulted.then (readAnswer_only ..) rfl).staysUp.endService
    · cases h
  · split at h
    · cases h
      exact (faulted.trans (gentle_checksumLine ..)).staysUp.endService
    · cases h
  · cases h
    exact (faulted.thenUp (staysUp_controlFailed ..)).endService
  · cases h
    exact (faulted.thenUp (staysUp_controlFailed ..)).endService
  · cases h

theorem lawful_operationOvertime (spared : Spared strict s v) {left : Left} (h : operationOvertime v left s = some u) :
    Lawful strict s u := by
  unfold operationOvertime at h
  split at h
  · cases h
    exact ((gentle_leaveContent v left s).trans (gentle_overtimeFault ..)).thenLawful
      (lawful_attemptFailed (s := overtimeFault v (leaveContent v left s)) spared _)
  · cases h
    exact (gentle_leaveContent v left s).thenLawful (lawful_entryFailed (s := leaveContent v left s) spared _)
  · exact lawful_mainOvertime spared h
  · cases h

/-! ## PROTECTED jobs end -/

/-- A PROTECTED job ends: its requester hears of it, and the service ends (R25). -/
theorem protectedReturn_law (honest : Honest strict s) (service : s.flash.service = some v) (waits : v.op = .protectedReturn) :
    ∃ u, Gentle s u ∧ protectedReturn v s = endService u := by
  have guarded := (honest v service).1 waits
  unfold protectedReturn
  split
  · rename_i req x b job
    refine ⟨_, ?_, rfl⟩
    rw [job] at guarded
    simp only [eraseReturn, job]
    cases req with
    | fetch i => exact .ite (fun _ => gentle_orphanErased ..) fun _ => gentle_fetchErased ..
    | host => exact gentle_loadErased ..
    | wipe => exact nomatch guarded
    | startUp => exact .refl s
  · exact ⟨_, gentle_programReturn .., rfl⟩
  · rename_i noErase noProgram
    cases job : v.job with
    | eraseUnit req x b => exact absurd job (noErase req x b)
    | programSegment req x b g d => exact absurd job (noProgram req x b g d)
    | _ =>
      rw [job] at guarded
      exact nomatch guarded

/-- With fuel for each job that names the active slot, no PROTECTED job is left (R25). -/
theorem drainProtected_law (n : Nat) (honest : Honest strict s) (fuel : guardedJobs s ≤ n) :
    NotProtected (drainProtected n s) ∧ Honest strict (drainProtected n s) ∧ (ReadsOver s → ReadsOver (drainProtected n s)) := by
  induction n generalizing s with
  | zero => exact ⟨(guardedJobs_zero_iff.mp (Nat.le_zero.mp fuel)).1, honest, id⟩
  | succ n ih =>
    by_cases free : NotProtected s
    · rw [drainProtected_eq free]
      exact ⟨free, honest, id⟩
    · obtain ⟨v, waits⟩ := not_forall.mp free
      obtain ⟨service, waits⟩ := Classical.not_imp.mp waits
      obtain waits := not_not.mp waits
      obtain ⟨u, gentle, ends⟩ := protectedReturn_law honest service waits
      have step : drainProtected (n + 1) s = drainProtected n (endService u) := by
        conv_lhs => unfold drainProtected
        simp only [service, waits, if_true, ends]
      obtain ⟨w, service', job', op'⟩ := gentle.busy v service
      have still : inProtected u = true := by
        unfold inProtected
        rw [service']
        simp [op', waits]
      have jobs := gentle.jobs
      obtain ⟨fewer, honest', _, over_⟩ := endService_law u
      have left : guardedJobs (endService u) ≤ n := by
        rw [guardedJobs, still] at jobs
        have one : true.toNat = 1 := rfl
        omega
      obtain ⟨free', honest'', over'⟩ := ih (honest' strict) left
      rw [step]
      exact ⟨free', honest'', over' ∘ over_ ∘ gentle.over_⟩

theorem guardedJobs_le (s : State) : guardedJobs s ≤ jobsWaiting s + 1 := by
  have waiting : waitingGuarded s ≤ jobsWaiting s := by
    refine (List.countP_le_length ..).trans (Nat.le_of_eq ?_)
    unfold waitingJobs jobsWaiting
    simp only [List.length_append]
  have one : (inProtected s).toNat ≤ 1 := Bool.toNat_le _
  unfold guardedJobs
  omega

/-- A command leaves no PROTECTED job and keeps the law, or has reset the part. -/
def Kept (strict : Bool) (s t : State) : Prop :=
  (NotProtected t ∧ Honest strict t ∧ (ReadsOver s → ReadsOver t)) ∨ ∃ p r, t = deviceReset p r

theorem notProtected_deviceReset (p : Pins) (r : State) : NotProtected (deviceReset p r) := fun _ h => nomatch h

theorem settle_deviceReset (b : State) (p : Pins) (r : State) : settle b (deviceReset p r) = deviceReset p r :=
  settle_mute (notProtected_deviceReset p r) rfl b

/-- The end of a lawful event. -/
theorem Lawful.settle (h : Lawful strict s u) (b : State) : Kept strict s (settle b u) := by
  rcases h with ⟨honest, over_⟩ | ⟨p, r, rfl⟩
  · obtain ⟨free, honest', over'⟩ := drainProtected_law _ honest (guardedJobs_le u)
    have watched : Gentle (drainProtected (jobsWaiting u + 1) u) (Machine.settle b u) := (noticeWatch_only b _).gentle rfl
    refine .inl ⟨?_, watched.honest strict honest', watched.over_ ∘ over' ∘ over_⟩
    exact (noticeWatch_only b (drainProtected (jobsWaiting u + 1) u)).free rfl free
  · exact .inr ⟨p, r, settle_deviceReset b p r⟩

/-! ## Operations that take no PROTECTED job -/

/-- No PROTECTED job has come into service (R25). -/
structure Frees (s t : State) : Prop where
  free : NotProtected s → NotProtected t

theorem Frees.refl (s : State) : Frees s s := ⟨id⟩

theorem Frees.trans (h : Frees s t) (k : Frees t u) : Frees s u := ⟨k.free ∘ h.free⟩

theorem Frees.ite {c : Prop} [Decidable c] {x y : State} (hx : c → Frees s x) (hy : ¬ c → Frees s y) :
    Frees s (if c then x else y) := by
  split
  · exact hx ‹_›
  · exact hy ‹_›

theorem Only.frees {ps : List Part} (h : Only ps s t) (off : ps.elem .service = false) : Frees s t := ⟨h.free off⟩

theorem Frees.then {ps : List Part} (h : Frees a s) (k : Only ps s t) (off : ps.elem .service = false) : Frees a t :=
  h.trans (k.frees off)

theorem Steady.frees (h : Steady s t) : Frees s t := ⟨h.free⟩

theorem frees_loseContention (e : TxEntry) (s : State) : Frees s (loseContention e s) := by
  have reported (t : State) : Frees t (givenUpReport e t) := by
    unfold givenUpReport
    split
    · exact ((setBuf_only ..).frees rfl).trans (steady_serveAdvance _).frees
    · exact .refl t
  have left := ((lineLeft_only (s.line.queue.filter (fun x => !x.onLine)) s).frees rfl).trans (reported _)
  unfold loseContention
  split
  · dsimp only
    split
    · exact left.trans (steady_fetchFollow _).frees
    · exact left
  · exact (lineLeft_only ..).frees rfl

theorem frees_clashFrame (s : State) : Frees s (clashFrame s) := by
  have ended : Frees s (frameEnds false s) := (frameEnds_only ..).frees rfl
  have clashes (t : State) : Frees t (enterClash t) :=
    (((setLink_only ..).frees rfl).then (only_timers ..) rfl).then (quiet_only _) rfl
  unfold clashFrame
  dsimp only
  split
  · exact ended.trans (clashes _)
  · exact ended.trans (clashes _)
  · exact ended.trans (clashes _)
  · exact ended

theorem frees_receiveFrame {deliver : State → State} (h : ∀ t, Frees t (deliver t)) (src : Addr) (format family : Bool) (s : State) :
    Frees s (receiveFrame src format family deliver s) := by
  have touchedPeer : Frees s (touchPeer src (frameEnds (linkEchoes s.line.link) s)) :=
    ((frameEnds_only ..).frees rfl).then (touchPeer_only ..) rfl
  exact .ite (fun _ => .refl s) fun _ => .ite (fun _ => (countReceiveError_only ..).frees rfl) fun _ =>
    .ite (fun _ => frees_clashFrame s) fun _ => .ite (fun _ => touchedPeer.trans (h _)) fun _ => touchedPeer

theorem frees_fetchOffer (src : Addr) (k : Key) (b : Block) (m : Mask) (s : State) : Frees s (fetchOffer src k b m s) := by
  have heard : Frees s (ctxIds.foldl (fun t i => hearOffer src k b m i t) s) :=
    (Only.foldl (fun t i => hearOffer_only src k b m i t) s ctxIds).frees rfl
  have joined (t : State) : Frees t (joinServe src k b m t) := by
    unfold joinServe
    split
    · exact .refl t
    · exact .ite (fun _ => .ite (fun _ => ((setCtx_only ..).frees rfl).trans (steady_submitErase ..).frees)
        fun _ => (setCtx_only ..).frees rfl) fun _ => .refl t
  exact (heard.trans (joined _)).trans (steady_fetchFollow _).frees

theorem steady_takeSegment (i : Fin 4) (g : Seg) (d : List Byte) (s : State) : Steady s (takeSegment i g d s) :=
  .ite (fun _ => .refl s) fun _ => .ite (fun _ => .refl s) fun _ => .ite (fun _ => (only_overrun _ s).steady rfl) fun _ =>
    (((setCtx_only i _ s).steady rfl).then (only_poolFree _ _) rfl).trans (steady_programNext i _)

theorem steady_fetchSegment (k : Key) (b : Block) (g : Seg) (d : List Byte) (s : State) : Steady s (fetchSegment k b g d s) := by
  unfold fetchSegment
  split
  · exact .refl s
  · rename_i i _
    refine .ite (fun _ => ?_) fun _ => .refl s
    have taken : Steady s (takeSegment i g d (updateCtx i Ctx.heardSegment s)) :=
      ((updateCtx_only ..).steady rfl).trans (steady_takeSegment ..)
    exact .ite (fun _ => ((taken.then (updateCtx_only ..) rfl).trans (steady_evaluate ..)).trans (steady_fetchFollow _)) fun _ => taken

theorem frees_enterJoining (s : State) : Frees s (enterJoining s) :=
  (((setLink_only .joining s).frees rfl).then (only_timers ..) rfl).trans (steady_fetchFollow _).frees

theorem steady_openContexts (s : State) : Steady s (openContexts s) :=
  (((steady_openOne s).trans (steady_openOne _)).trans (steady_openOne _)).trans (steady_openOne _)

theorem elapse_only (ms : Nat) (s : State) :
    Only [.line, .timers, .notice, .peers, .fetch, .ctxs, .deferral, .serve, .serveQueue] s (elapse ms s) := by
  refine ⟨fun p hp => ?_⟩
  cases p <;> first | exact Eq.refl _ | contradiction

theorem gentle_elapse (ms : Nat) (s : State) : Gentle s (elapse ms s) := (elapse_only ms s).gentle rfl

theorem frees_elapse (ms : Nat) (s : State) : Frees s (elapse ms s) := (elapse_only ms s).frees rfl

/-! ## Every command -/

/-- A command's outcome, where it has one, keeps the law. -/
def Leads (strict : Bool) (s : State) (o : Host.Outcome State Fault Refusal) : Prop := ∀ t, o = .next t → Kept strict s t

theorem leads_refuse (r : Refusal) : Leads strict s (refuse r) := fun _ h => nomatch h

theorem leads_conclude (h : Lawful strict s u) : Leads strict s (conclude s u) := by
  intro t e
  obtain rfl := next_inj e
  exact h.settle s

theorem leads_proceed (honest : Honest strict s) (hp : NotProtected s) (frees : Frees s u) (gentle : Gentle s u) :
    Leads strict s (proceed u) := by
  intro t e
  obtain rfl := next_inj e
  exact .inl ⟨frees.free hp, gentle.honest strict honest, gentle.over_⟩

theorem leads_only {ps : List Part} (honest : Honest strict s) (hp : NotProtected s) (h : Only ps s u)
    (off : lawParts.all (fun p => !ps.elem p) = true) : Leads strict s (proceed u) := by
  have service : ps.elem .service = false := by simpa using List.all_eq_true.mp off .service (by decide)
  exact leads_proceed honest hp (h.frees service) (h.gentle off)

theorem leads_reset (p : Pins) (r : State) : Leads strict s (proceed (deviceReset p r)) := by
  intro t e
  obtain rfl := next_inj e
  exact .inr ⟨p, r, rfl⟩

/-! ### The flash sequencer -/

variable (honest : Honest strict s) (hp : NotProtected s)

include honest hp in
/-- A job in service that has not ended PROTECTED is spared (R25). -/
theorem spared_of_honest (service : s.flash.service = some v) : Spared strict s v := fun h names =>
  hp v service ((honest v service).2 h names)

theorem gentle_strapPins (x : Straps) (s : State) : Gentle s (strapPins x s) := (strapPins_only ..).gentle rfl

include honest hp in
theorem leads_eraseAttempt (l : Left) : Leads strict s (execEraseAttempt l s) := by
  unfold execEraseAttempt
  split
  · rename_i v service
    split
    · exact leads_conclude (lawful_eraseEnds (spared_of_honest honest hp service) ..)
    · exact leads_refuse _
  · exact leads_refuse _

include honest hp in
theorem leads_spareEntryProgram (l : Left) : Leads strict s (execSpareEntryProgram l s) := by
  unfold execSpareEntryProgram
  split
  · rename_i v service
    split
    · split
      · exact leads_conclude (lawful_entryEnds (spared_of_honest honest hp service) honest ..)
      · exact leads_refuse _
    · exact leads_refuse _
  · exact leads_refuse _

include honest hp in
theorem leads_programSegment (l : Left) : Leads strict s (execProgramSegment l s) := by
  unfold execProgramSegment
  split
  · rename_i v service
    split
    · exact leads_conclude (lawful_segmentEnds (spared_of_honest honest hp service) honest ..)
    · exact leads_conclude ((gentle_leaveContent v l s).trans (gentle_nodeReturn ..)).staysUp.endService
    · exact leads_refuse _
  · exact leads_refuse _

theorem leads_verifyBlock : Leads strict s (execVerifyBlock s) := by
  unfold execVerifyBlock
  split
  · split
    · exact leads_conclude (gentle_verifyReturn ..).staysUp.endService
    · exact leads_refuse _
  · exact leads_refuse _

theorem leads_readSegment : Leads strict s (execReadSegment s) := by
  unfold execReadSegment
  split
  · split
    · exact leads_conclude (gentle_readResult ..).staysUp.endService
    · exact leads_refuse _
  · exact leads_refuse _

theorem leads_readRange : Leads strict s (execReadRange s) := by
  unfold execReadRange
  split
  · split
    · exact leads_conclude ((readAnswer_only ..).gentle rfl).staysUp.endService
    · exact leads_refuse _
  · exact leads_refuse _

theorem leads_checkBlock : Leads strict s (execCheckBlock s) := by
  unfold execCheckBlock
  split
  · split
    · exact leads_conclude (gentle_checksumLine ..).staysUp.endService
    · exact leads_refuse _
  · exact leads_refuse _

theorem staysUp_controlResult {c : Prop} [Decidable c] (u : ControlUnit) (j : Job) (s : State) :
    StaysUp s (if c then controlDone j s else controlFailed u j s) := by
  split
  · exact staysUp_controlDone ..
  · exact staysUp_controlFailed ..

theorem leads_setMark (l : Left) : Leads strict s (execSetMark l s) := by
  unfold execSetMark
  split
  · rename_i v _
    split
    · exact leads_conclude ((gentle_leaveContent v l s).thenUp (staysUp_controlResult ..)).endService
    · exact leads_refuse _
  · exact leads_refuse _

theorem leads_appendRecord (l : LastLeft) : Leads strict s (execAppendRecord l s) := by
  unfold execAppendRecord
  split
  · rename_i v _
    have left := (gentle_strapPins l.straps s).trans (gentle_leaveContent v l.content _)
    split
    · exact leads_conclude (left.thenUp (staysUp_controlResult ..)).endService
    · exact leads_refuse _
  · exact leads_refuse _

include honest hp in
theorem leads_overtime (l : LastLeft) : Leads strict s (execOvertime l s) := by
  unfold execOvertime
  split
  · rename_i v service
    split
    · split
      · rename_i u ends
        have spared : Spared strict (strapPins l.straps s) v := spared_of_honest honest hp service
        exact leads_conclude ((gentle_strapPins l.straps s).thenLawful (lawful_operationOvertime spared ends))
      · exact leads_refuse _
    · exact leads_refuse _
  · exact leads_refuse _

/-! ### The distribution line -/

include honest hp in
theorem leads_lineIdle : Leads strict s (execLineIdle s) := by
  have chosen : Only [.line, .queue] s (lineIdleChoice s) := by
    unfold lineIdleChoice
    split
    · refine ⟨fun p off => ?_⟩
      cases p <;> first | exact Eq.refl _ | contradiction
    · exact lineLeft_only ..
  unfold execLineIdle
  split
  · exact leads_only honest hp (.refl [] s) rfl
  · split
    · exact leads_refuse _
    · exact leads_only honest hp chosen rfl

include honest hp in
theorem leads_contentionLost : Leads strict s (execContentionLost s) := by
  unfold execContentionLost
  split
  · exact leads_proceed honest hp (frees_loseContention ..) (gentle_loseContention ..)
  · exact leads_refuse _

include honest in
theorem leads_attempt (echoed : Bool) : Leads strict s (execAttemptEnd echoed s) := by
  unfold execAttemptEnd
  split
  · exact leads_conclude ((gentle_endAttempt ..).lawful honest)
  · exact leads_refuse _

include honest hp in
theorem leads_frameDiscarded (bits : List Bool) (d : Bool) : Leads strict s (execFrameDiscarded bits d s) := by
  unfold execFrameDiscarded
  split
  · exact leads_only honest hp (.refl [] s) rfl
  · split
    · exact leads_only honest hp (countReceiveError_only ..) rfl
    · exact leads_refuse _

include honest hp in
theorem leads_clash : Leads strict s (execClash s) := by
  unfold execClash
  split
  · exact leads_only honest hp (.refl [] s) rfl
  · exact leads_proceed honest hp (frees_clashFrame s) (gentle_clashFrame s)

include honest in
theorem leads_releaseReceived (src : Addr) (k : Key) (n : Byte) : Leads strict s (execReleaseReceived src k n s) :=
  leads_conclude ((gentle_receiveFrame (gentle_releaseCandidate src k n) ..).lawful honest)

include honest hp in
theorem leads_offerReceived (src : Addr) (k : Key) (b : Block) (m : Mask) : Leads strict s (execOfferReceived src k b m s) :=
  leads_proceed honest hp (frees_receiveFrame (fun t => ((suppress_only k b m t).frees rfl).trans (frees_fetchOffer ..)) ..)
    (gentle_receiveFrame (fun t => ((suppress_only k b m t).gentle rfl).trans (gentle_fetchOffer ..)) ..)

include honest hp in
theorem leads_askReceived (src : Addr) (target : Byte) (k : Key) (b : Block) (m : Mask) :
    Leads strict s (execAskReceived src target k b m s) :=
  leads_proceed honest hp (frees_receiveFrame (fun _ => (serveAsk_only ..).frees rfl) ..)
    (gentle_receiveFrame (fun _ => (serveAsk_only ..).gentle rfl) ..)

include honest hp in
theorem leads_segmentReceived (src : Addr) (k : Key) (b : Block) (g : Byte) (d : List Byte) :
    Leads strict s (execSegmentReceived src k b g d s) :=
  leads_proceed honest hp (frees_receiveFrame (fun _ => (steady_fetchSegment ..).frees) ..)
    (gentle_receiveFrame (fun _ => gentle_fetchSegment ..) ..)

include honest in
theorem leads_noticeReceived (src : Addr) (n : NoticeFrame) : Leads strict s (execNoticeReceived src n s) :=
  leads_conclude ((gentle_receiveFrame (gentle_deliverNotice src n) ..).lawful honest)

/-! ### Timers -/

include honest hp in
theorem leads_joinTimer : Leads strict s (execJoinTimer s) := by
  unfold execJoinTimer
  split
  · rename_i left _ _
    have timed := (elapse_only left s).next (only_timers (some 1000) (elapse left s).line.listen _)
      (ps := [.line, .timers, .notice, .peers, .fetch, .ctxs, .deferral, .serve, .serveQueue]) rfl rfl
    exact leads_only honest hp (timed.next (submitNotice_only _)
      (ps := [.line, .timers, .notice, .peers, .fetch, .ctxs, .deferral, .serve, .serveQueue, .queue]) rfl rfl) rfl
  · exact leads_refuse _

include honest hp in
theorem leads_listenOnlyTimer : Leads strict s (execListenOnlyTimer s) := by
  unfold execListenOnlyTimer
  split
  · exact leads_proceed honest hp ((frees_elapse ..).trans (frees_enterJoining _))
      ((gentle_elapse ..).trans (gentle_enterJoining _))
  · exact leads_refuse _

include honest hp in
theorem leads_periodicTimer : Leads strict s (execPeriodicTimer s) := by
  unfold execPeriodicTimer
  split
  · rename_i left _ _
    have stopped := only_watch { (elapse left s).notice with periodicLeft := none } (elapse left s) rfl
    exact leads_proceed honest hp (((frees_elapse left s).then stopped rfl).then (submitNotice_only _) rfl)
      (((gentle_elapse left s).then stopped rfl).then (submitNotice_only _) rfl)
  · exact leads_refuse _

include honest hp in
theorem leads_spacingTimer : Leads strict s (execSpacingTimer s) := by
  unfold execSpacingTimer
  split
  · split
    · exact leads_proceed honest hp ((frees_elapse ..).then (submitIfDifferent_only _) rfl)
        ((gentle_elapse ..).then (submitIfDifferent_only _) rfl)
    · exact leads_refuse _
  · exact leads_refuse _

include honest hp in
theorem leads_peerAgedOut (x : Addr) : Leads strict s (execPeerAgedOut x s) := by
  unfold execPeerAgedOut
  split
  · exact leads_proceed honest hp ((frees_elapse ..).then (setPeers_only ..) rfl) ((gentle_elapse ..).then (setPeers_only ..) rfl)
  · exact leads_refuse _

include honest hp in
theorem leads_claimWindow (i : Fin 4) : Leads strict s (execClaimWindow i s) := by
  unfold execClaimWindow
  split
  · exact leads_proceed honest hp
      (((((frees_elapse ..).then (addTally_only ..) rfl).then (updateCtx_only ..) rfl).trans (steady_enterAsking i _).frees).trans
        (steady_fetchFollow _).frees)
      (((((gentle_elapse ..).then (addTally_only ..) rfl).then (updateCtx_only ..) rfl).trans (gentle_enterAsking i _)).trans
        (gentle_fetchFollow _))
  · exact leads_refuse _

include honest hp in
theorem leads_silenceTimer (i : Fin 4) : Leads strict s (execSilenceTimer i s) := by
  unfold execSilenceTimer
  split
  · exact leads_proceed honest hp
      ((((frees_elapse ..).then (updateCtx_only ..) rfl).trans (steady_evaluate i _).frees).trans (steady_fetchFollow _).frees)
      (((gentle_elapse ..).trans (gentle_serveEnded i _)).trans (gentle_fetchFollow _))
  · exact leads_refuse _

include honest hp in
theorem leads_deferralTimer : Leads strict s (execDeferralTimer s) := by
  unfold execDeferralTimer
  split
  · exact leads_proceed honest hp (((frees_elapse ..).then (only_deferral ..) rfl).trans (steady_openContexts _).frees)
      (((gentle_elapse ..).then (only_deferral ..) rfl).trans (gentle_openContexts _))
  · exact leads_refuse _

include honest hp in
theorem leads_serveDelay : Leads strict s (execServeDelay s) := by
  unfold execServeDelay
  split
  · exact leads_proceed honest hp ((frees_elapse ..).then (enterOffering_only ..) rfl)
      ((gentle_elapse ..).then (enterOffering_only ..) rfl)
  · exact leads_refuse _

/-! ### The host port -/

theorem PortOnly.only (h : PortOnly s t) : Only [.port, .answer, .events, .load] s t := by
  rw [show t = { s with port := t.port } from h]
  refine ⟨fun p off => ?_⟩
  cases p <;> first | exact Eq.refl _ | contradiction

theorem releasePins_portOnly (s : State) : PortOnly s (releasePins s) := rfl

theorem captureState_portOnly (s : State) : PortOnly s (captureState s) := rfl

theorem answerRead_portOnly (n : Nat) (s : State) : PortOnly s (answerRead n s) := by
  unfold answerRead
  dsimp only
  split
  · rw [show endTransaction n (answerFollowing (captured s)) s = _ from endTransaction_portOnly ..]
    rfl
  · exact endTransaction_portOnly ..

theorem answered_portOnly {r : ResultCode} {payload : List Byte} (h : PortOnly s t) : PortOnly s (answer r payload t) := by
  rw [show t = { s with port := t.port } from h]
  rfl

/-- A host command's transaction changes the port alone, or its body is carried out (R151, R155, R158, R166). -/
theorem hostCommand_cases (c : HostCommand) (p : Params) (body : State → State) (s : State) :
    PortOnly s (hostCommand c p body s) ∨
      ((running s = true ∨ takenInRebuild c = true) ∧ hostCommand c p body s = body (frameTaken p s)) := by
  by_cases closed : portClosed s = true
  · have eq : hostCommand c p body s = releasePins s := if_pos closed
    exact .inl (eq ▸ releasePins_portOnly s)
  · have opened : portClosed s = false := by simpa using closed
    by_cases taken : s.port.state = .taken
    · rw [hostCommand_ignored opened taken]
      exact .inl (frameClocked_portOnly ..)
    · have ready : PortReady s := ⟨opened, taken⟩
      by_cases short : p.bytes.length ≤ 140
      · by_cases phase : running s = true ∨ takenInRebuild c = true
        · rw [hostCommand_judged ready short phase]
          split
          · exact .inl (answered_frameTaken_portOnly ..)
          · exact .inr ⟨phase, rfl⟩
        · obtain ⟨rebuilding, waits⟩ := not_or.mp phase
          rw [hostCommand_notReady ready short (by simpa using rebuilding) (by simpa using waits)]
          exact .inl (answered_frameTaken_portOnly ..)
      · have eq : hostCommand c p body s = answer .badFrame [faultCode .length] (frameClocked p s) := by
          unfold hostCommand
          rw [if_neg closed]
          dsimp only
          rw [if_neg (by rwa [endTransaction_state]), if_pos (Nat.lt_of_not_le short)]
          rfl
        exact .inl (eq ▸ answered_portOnly (frameClocked_portOnly p s))

/-- A body that is gentle makes its command gentle. -/
theorem gentle_hostCommand {body : State → State} (h : ∀ t, Gentle t (body t)) (c : HostCommand) (p : Params) (s : State) :
    Gentle s (hostCommand c p body s) := by
  rcases hostCommand_cases c p body s with only | ⟨_, eq⟩
  · exact only.only.gentle rfl
  · rw [eq]
    exact ((frameTaken_portOnly p s).only.gentle rfl).trans (h _)

theorem frees_hostCommand {body : State → State} (h : ∀ t, Frees t (body t)) (c : HostCommand) (p : Params) (s : State) :
    Frees s (hostCommand c p body s) := by
  rcases hostCommand_cases c p body s with only | ⟨_, eq⟩
  · exact only.only.frees rfl
  · rw [eq]
    exact ((frameTaken_portOnly p s).only.frees rfl).trans (h _)

theorem idBody_portOnly (s : State) : PortOnly s (idBody s) := by
  unfold idBody
  split <;> rfl

theorem statBody_portOnly (s : State) : PortOnly s (statBody s) := by
  unfold statBody
  split <;> rfl

theorem blocksBody_portOnly (p : List Byte) (s : State) : PortOnly s (blocksBody p s) := by
  unfold blocksBody
  dsimp only
  split
  · split <;> rfl
  · rfl

theorem peersBody_portOnly (p : List Byte) (s : State) : PortOnly s (peersBody p s) := by
  unfold peersBody
  dsimp only
  split <;> rfl

theorem eventBody_portOnly (p : List Byte) (s : State) : PortOnly s (eventBody p s) := by
  unfold eventBody
  dsimp only
  split <;> rfl

/-! ### Commands that change the host port alone -/

/-- A command's outcome, where it has one, differs in the host port alone. -/
def Still (s : State) (o : Host.Outcome State Fault Refusal) : Prop := ∀ t, o = .next t → PortOnly s t

theorem still_refuse (r : Refusal) : Still s (refuse r) := fun _ h => nomatch h

theorem still_proceed (h : PortOnly s t) : Still s (proceed t) := fun _ e => next_inj e ▸ h

theorem still_refused {o : Host.Outcome State Fault Refusal} {r : Refusal} (h : o = refuse r) : Still s o := h ▸ still_refuse r

/-- A report of the host, taken in any phase or not at all, changes the port alone (R158). -/
theorem still_report {body : State → State} (h : ∀ t, PortOnly t (body t)) (c : HostCommand) (p : Params) :
    Still s (proceed (hostCommand c p body s)) := by
  rcases hostCommand_cases c p body s with only | ⟨_, eq⟩
  · exact still_proceed only
  · rw [eq]
    have taken := h (frameTaken p s)
    have only : PortOnly s (body (frameTaken p s)) := by
      rw [show body (frameTaken p s) = _ from taken, show frameTaken p s = _ from frameTaken_portOnly p s]
      rfl
    exact still_proceed only

theorem still_transactionBegin : Still s (execTransactionBegin s) := by
  unfold execTransactionBegin
  split
  · exact still_refuse _
  · split <;> exact still_proceed rfl

theorem still_answerRead (n : Nat) : Still s (execAnswerRead n s) := by
  unfold execAnswerRead
  split
  · exact still_proceed rfl
  · exact still_proceed (answerRead_portOnly n s)

theorem still_hcsHighAfterReset : Still s (execHcsHighAfterReset s) := by
  unfold execHcsHighAfterReset
  split
  · exact still_refuse _
  · split
    · exact still_proceed rfl
    · exact still_refuse _

theorem still_badFrame (bytes : List Byte) : Still s (execBadFrame bytes s) := by
  unfold execBadFrame
  split
  · exact still_proceed rfl
  · split
    · exact still_proceed (endTransaction_portOnly ..)
    · split
      · exact still_refuse _
      · split
        · exact still_refuse _
        · dsimp only
          split
          · exact still_proceed (endTransaction_portOnly ..)
          · exact still_proceed (answered_endTransaction_portOnly ..)

theorem still_frameIgnored (bytes : List Byte) : Still s (execFrameIgnored bytes s) := by
  unfold execFrameIgnored
  split
  · exact still_proceed rfl
  · split
    · exact still_proceed (endTransaction_portOnly ..)
    · exact still_refuse _

theorem Still.leads {o : Host.Outcome State Fault Refusal} (h : Still s o) (honest : Honest strict s) (hp : NotProtected s) :
    Leads strict s o := fun t e =>
  .inl ⟨(h t e).only.free rfl hp, ((h t e).only.gentle rfl).honest strict honest, ((h t e).only.gentle rfl).over_⟩

/-- A job that the law does not guard, handed over after a change of the port. -/
theorem frees_submitted {q : Queue} {j : Job} (h : PortOnly s t) (off : (takeJob t j).op ≠ .protectedReturn) :
    Frees s (submit q j t) := (h.only.frees rfl).trans (steady_submit off).frees

theorem gentle_submitted {q : Queue} {j : Job} (h : PortOnly s t) (off : guardedSlot j = none) : Gentle s (submit q j t) :=
  (h.only.gentle rfl).trans (gentle_submit (by rw [off]; exact nofun))

theorem badParam_portOnly (s : State) : PortOnly s (badParam s) := rfl

theorem job_identBody (p : List Byte) (s : State) : Frees s (identBody p s) ∧ Gentle s (identBody p s) := by
  unfold identBody
  dsimp only
  split
  · exact ⟨(badParam_portOnly s).only.frees rfl, (badParam_portOnly s).only.gentle rfl⟩
  · split
    · exact ⟨frees_submitted rfl nofun, gentle_submitted rfl rfl⟩
    · exact ⟨(answer_only ..).frees rfl, (answer_only ..).gentle rfl⟩

theorem job_readBody (p : List Byte) (s : State) : Frees s (readBody p s) ∧ Gentle s (readBody p s) := by
  have bad := badParam_portOnly s
  unfold readBody
  dsimp only
  split
  · split
    · exact ⟨frees_submitted rfl nofun, gentle_submitted rfl rfl⟩
    · exact ⟨bad.only.frees rfl, bad.only.gentle rfl⟩
  · exact ⟨bad.only.frees rfl, bad.only.gentle rfl⟩

theorem job_checksumBody (p : List Byte) (s : State) : Frees s (checksumBody p s) ∧ Gentle s (checksumBody p s) := by
  have bad := badParam_portOnly s
  unfold checksumBody
  dsimp only
  split
  · split
    · exact ⟨frees_submitted rfl nofun, gentle_submitted rfl rfl⟩
    · exact ⟨bad.only.frees rfl, bad.only.gentle rfl⟩
  · exact ⟨bad.only.frees rfl, bad.only.gentle rfl⟩

theorem gentle_startSwitch (revert : Bool) (s : State) : Gentle s (startSwitch revert s) :=
  ((((setStagingState_only ..).gentle rfl).then (setProcedure_only ..) rfl).then (setCommand_only ..) rfl).trans (gentle_addAppend ..)

theorem gentle_answer (r : ResultCode) (p : List Byte) (s : State) : Gentle s (answer r p s) := (answer_only ..).gentle rfl

theorem gentle_acceptBody (p : List Byte) (s : State) : Gentle s (acceptBody p s) :=
  .ite (fun _ => gentle_answer ..) fun _ => .ite (fun _ => gentle_answer ..) fun _ => .ite (fun _ => gentle_startSwitch ..) fun _ =>
    .ite (fun _ => .ite (fun _ => gentle_answer ..) fun _ => gentle_startSwitch ..) fun _ => gentle_answer ..

theorem gentle_floorBody (p : List Byte) (s : State) : Gentle s (floorBody p s) :=
  .ite (fun _ => gentle_answer ..) fun _ => .ite (fun _ => gentle_answer ..) fun _ => .ite (fun _ => gentle_answer ..) fun _ =>
    .ite (fun _ => gentle_answer ..) fun _ =>
      (((setProcedure_only ..).gentle rfl).then (setCommand_only ..) rfl).trans (gentle_addAppend ..)

theorem gentle_startLoad (s : State) : Gentle s (startLoad s) := by
  unfold startLoad
  extract_lets old s1 s2 s3 s4 s5 s6
  have h1 : Gentle s s1 := (((((setProcedure_only ..).gentle rfl).then (setCommand_only ..) rfl).then (setLoad_only ..) rfl).then
    (setStagingState_only ..) rfl).then (updateStaging_only ..) rfl
  have h4 : Gentle s s4 := ((h1.trans (gentle_abandon s1)).trans (gentle_cancelKey old s2)).then (updateStaging_only ..) rfl
  have h6 : Gentle s s6 := (h4.trans (gentle_dropMarks ..)).trans (gentle_addWork rfl s5)
  exact h6.trans (gentle_addAppend _ s6)

theorem gentle_loadBeginBody (s : State) : Gentle s (loadBeginBody s) :=
  .ite (fun _ => gentle_answer ..) fun _ => .ite (fun _ => gentle_answer ..) fun _ => gentle_startLoad s

theorem gentle_loadSegment (b : Block) (g : Seg) (d : List Byte) (s : State) : Gentle s (loadSegment b g d s) :=
  .ite (fun _ => ((setCommand_only ..).gentle rfl).trans (gentle_loadErase ..)) fun _ =>
    .ite (fun _ => ((setCommand_only ..).gentle rfl).trans (gentle_loadProgram ..)) fun _ => gentle_answer ..

theorem gentle_loadDataBody (p : List Byte) (s : State) : Gentle s (loadDataBody p s) :=
  .ite (fun _ => gentle_answer ..) fun _ => .ite (fun _ => gentle_answer ..) fun _ => gentle_loadSegment ..

theorem gentle_loadEndBody (s : State) : Gentle s (loadEndBody s) := by
  refine .ite (fun _ => gentle_answer ..) fun _ => .ite (fun _ => gentle_answer ..) fun _ => ?_
  split
  · exact gentle_answer ..
  · exact .ite (fun _ => ((updateStaging_only ..).gentle rfl).trans (gentle_loadEndVerify ..)) fun _ => gentle_answer ..

theorem gentle_loadAbortBody (s : State) : Gentle s (loadAbortBody s) :=
  .ite (fun _ => (((((setStagingState_only ..).gentle rfl).then (updateStaging_only ..) rfl).then (setLoad_only ..) rfl).then
    (answer_only ..) rfl).trans (gentle_judgeTarget _)) fun _ => gentle_answer ..

theorem gentle_publishBody (p : List Byte) (s : State) : Gentle s (publishBody p s) := by
  have published (k : Key) (n : Nat) : Gentle s (publishKey k n s) := by
    unfold publishKey
    dsimp only
    split
    · exact (((txSubmit_only ..).gentle rfl).then (setCommand_only ..) rfl).trans (gentle_judge ..)
    · exact gentle_answer ..
    · exact gentle_answer ..
  unfold publishBody
  split
  · exact gentle_answer ..
  · dsimp only
    split
    · exact published ..
    · exact gentle_answer ..

/-- The part as WIPE has begun: the link quiet, the record jobs that wait withdrawn (R207). -/
def wipeOpened (s : State) : State :=
  withdrawJobs .record (fun _ => true)
    { wipeLink s with cat := { (wipeLink s).cat with work := [], procedure := .wipe .drain false } }

/-- The catalogue emptied of its images (R207). -/
def catEmptied (s : State) : State :=
  { s with cat := { s.cat with
      slotA := .cleared, slotB := .cleared, activeState := .none, stagingState := .empty, target := none } }

theorem catEmptied_only (s : State) : Only [.cat, .slots, .activeState, .stagingState, .target] s (catEmptied s) := by
  refine ⟨fun p off => ?_⟩
  cases p <;> first | exact Eq.refl _ | contradiction

/-- The fetch work abandoned and the catalogue emptied (R207). -/
def wipeCleared (s : State) : State := catEmptied (abandon (wipeOpened s))

theorem wipeBegin_eq (s : State) : wipeBegin s =
    if recordInService (wipeCleared s) then wipeCleared s else wipeNext (wipeCleared s) := by
  unfold wipeBegin wipeCleared catEmptied wipeOpened
  dsimp only

theorem gentle_workEmptied (p : Procedure) (s : State) :
    Gentle s { s with cat := { s.cat with work := [], procedure := p } } := by
  refine gentle_of_fewer rfl rfl rfl (waitingGuarded_le_of_sublist rfl ?_)
  unfold waitingJobs
  exact (List.Sublist.refl _).append (List.nil_sublist _)

theorem gentle_wipeOpened (s : State) : Gentle s (wipeOpened s) := by
  unfold wipeOpened
  exact ((gentle_wipeLink s).trans (gentle_workEmptied _ _)).trans (gentle_withdrawJobs ..)

theorem gentle_wipeCleared (s : State) : Gentle s (wipeCleared s) :=
  ((gentle_wipeOpened s).trans (gentle_abandon _)).then (catEmptied_only _) rfl

theorem wipeBegin_cases (s : State) : Gentle s (wipeBegin s) ∨ ∃ r, wipeBegin s = deviceReset r.pins r := by
  rw [wipeBegin_eq]
  split
  · exact .inl (gentle_wipeCleared s)
  · exact (wipeNext_cases _).imp (gentle_wipeCleared s).trans fun reset => ⟨_, reset⟩

/-! ### The host's commands, and resets -/

include honest in
/-- A host command that is gentle, with the notice unit's watch at its end. -/
theorem leads_host {body : State → State} (h : ∀ t, Gentle t (body t)) (c : HostCommand) (p : Params) :
    Leads strict s (conclude s (hostCommand c p body s)) :=
  leads_conclude ((gentle_hostCommand h ..).lawful honest)

include honest hp in
theorem leads_job {body : State → State} (h : ∀ t, Frees t (body t) ∧ Gentle t (body t)) (c : HostCommand) (p : Params) :
    Leads strict s (proceed (hostCommand c p body s)) :=
  leads_proceed honest hp (frees_hostCommand (fun t => (h t).1) ..) (gentle_hostCommand (fun t => (h t).2) ..)

include honest in
theorem leads_wipe (p : Params) : Leads strict s (execWipe p s) := by
  refine leads_conclude ?_
  rcases hostCommand_cases .wipe p wipeBody s with only | ⟨_, eq⟩
  · exact (only.only.gentle rfl).lawful honest
  · rw [eq]
    have opened : Gentle s (setCommand .wipe (frameTaken p s)) :=
      ((frameTaken_portOnly p s).only.gentle rfl).then (setCommand_only ..) rfl
    rcases wipeBegin_cases (setCommand .wipe (frameTaken p s)) with gentle | ⟨r, reset⟩
    · exact (opened.trans gentle).lawful honest
    · exact .inr ⟨_, _, reset⟩

include honest in
theorem leads_restart (p : Params) (pins : Straps) (l : Left) : Leads strict s (execRestart p pins l s) := by
  unfold execRestart
  split
  · exact leads_refuse _
  · refine leads_conclude ?_
    rcases hostCommand_cases .restart p (restartBody pins l) s with only | ⟨_, eq⟩
    · exact (only.only.gentle rfl).lawful honest
    · exact .inr ⟨_, _, eq⟩

theorem leads_deviceReset (c : ResetCause) (pins : Straps) (l : Left) : Leads strict s (execDeviceReset c pins l s) := by
  unfold execDeviceReset
  split
  · exact leads_reset _ _
  · exact leads_refuse _

theorem leads_powerLoss (l : Left) : Leads strict s (execPowerLoss l s) := by
  unfold execPowerLoss
  split
  · exact leads_refuse _
  · split
    · exact leads_reset _ _
    · exact leads_refuse _

include honest hp in
theorem leads_startUpBegins (pins : Straps) : Leads strict s (execStartUpBegins pins s) := by
  unfold execStartUpBegins
  split
  · rename_i held
    intro t e
    obtain rfl := next_inj e
    refine .inl ⟨hp, honest, fun over_ => ?_⟩
    have stage : s.startUp.stage = .held := by simp_all
    rcases over_ with over_ | over_ <;> exact nomatch stage.symm.trans over_
  · exact leads_refuse _

include hp in
/-- The start-up reads end with no job in service, in a part at rest, and the rebuild begins (R194, R196). -/
theorem kept_startUpReadsEnd (rest : strict = true → AtRest s) (h : execStartUpReadsEnd s = .next t) :
    Kept strict (readsHandedOver s) t := by
  unfold execStartUpReadsEnd at h
  split at h
  · rename_i reading
    have honest : Honest strict (readsHandedOver s) := by
      intro v service
      refine ⟨fun waits => absurd waits (hp v service), fun h => ?_⟩
      obtain ⟨flash, _⟩ := rest h (.inr reading)
      have none : s.flash.service = none := flash ▸ rfl
      exact nomatch none.symm.trans service
    have faulted (t : State) : Gentle t (voidedStoreFault t) := by
      unfold voidedStoreFault
      split
      · exact (raise_only ..).gentle rfl
      · exact .refl t
    have answered (t : State) : Gentle t (answerWaiting t) := by
      unfold answerWaiting
      split
      · exact gentle_answer ..
      · exact gentle_answer ..
      · exact .refl t
    have goes := ((faulted (readsHandedOver s)).trans (answered _)).trans (gentle_rebuildFrom .active 0 _)
    obtain rfl := next_inj h
    exact (goes.lawful honest).settle s
  · cases h

include hp in
theorem leads_startUpReadsEnd (rest : strict = true → AtRest s) : Leads strict s (execStartUpReadsEnd s) := fun _ h =>
  (kept_startUpReadsEnd hp rest h).imp_left fun ⟨free, honest, over_⟩ => ⟨free, honest, fun _ => over_ (.inl rfl)⟩

include honest hp in
/-- Every command keeps the active-slot law (R25). -/
theorem leads_exec (rest : strict = true → AtRest s) (c : Instr) : Leads strict s (exec c s) := by
  cases c with
  | deviceReset cause pins left => exact leads_deviceReset cause pins left
  | powerLoss left => exact leads_powerLoss left
  | startUpReadsEnd => exact leads_startUpReadsEnd hp rest
  | eraseAttempt left => exact leads_eraseAttempt honest hp left
  | spareEntryProgram left => exact leads_spareEntryProgram honest hp left
  | programSegment left => exact leads_programSegment honest hp left
  | verifyBlock => exact leads_verifyBlock
  | readSegment => exact leads_readSegment
  | readRange => exact leads_readRange
  | checkBlock => exact leads_checkBlock
  | setMark left => exact leads_setMark left
  | appendRecord left => exact leads_appendRecord left
  | overtime left => exact leads_overtime honest hp left
  | lineIdle => exact leads_lineIdle honest hp
  | contentionLost => exact leads_contentionLost honest hp
  | bitError => exact leads_attempt honest false
  | attemptEnd echoed => exact leads_attempt honest echoed
  | frameDiscarded bits d => exact leads_frameDiscarded honest hp bits d
  | clash => exact leads_clash honest hp
  | releaseReceived src k n => exact leads_releaseReceived honest src k n
  | offerReceived src k b m => exact leads_offerReceived honest hp src k b m
  | askReceived src target k b m => exact leads_askReceived honest hp src target k b m
  | segmentReceived src k b g d => exact leads_segmentReceived honest hp src k b g d
  | noticeReceived src n => exact leads_noticeReceived honest src n
  | joinTimer => exact leads_joinTimer honest hp
  | listenOnlyTimer => exact leads_listenOnlyTimer honest hp
  | periodicTimer => exact leads_periodicTimer honest hp
  | spacingTimer => exact leads_spacingTimer honest hp
  | peerAgedOut x => exact leads_peerAgedOut honest hp x
  | claimWindow i => exact leads_claimWindow honest hp i
  | silenceTimer i => exact leads_silenceTimer honest hp i
  | deferralTimer => exact leads_deferralTimer honest hp
  | serveDelay => exact leads_serveDelay honest hp
  | transactionBegin => exact still_transactionBegin.leads honest hp
  | answerRead n => exact (still_answerRead n).leads honest hp
  | badFrame bytes => exact (still_badFrame bytes).leads honest hp
  | frameIgnored bytes => exact (still_frameIgnored bytes).leads honest hp
  | idReport p => exact (still_report idBody_portOnly .idReport p).leads honest hp
  | ident p => exact leads_job honest hp (job_identBody p.bytes) .ident p
  | stat p => exact (still_report statBody_portOnly .stat p).leads honest hp
  | slots p => exact (still_report (body := slotsBody) (fun _ => rfl) .slots p).leads honest hp
  | blocks p => exact (still_report (blocksBody_portOnly p.bytes) .blocks p).leads honest hp
  | peers p => exact (still_report (peersBody_portOnly p.bytes) .peers p).leads honest hp
  | event p => exact (still_report (eventBody_portOnly p.bytes) .event p).leads honest hp
  | read p => exact leads_job honest hp (job_readBody p.bytes) .read p
  | checksum p => exact leads_job honest hp (job_checksumBody p.bytes) .checksum p
  | accept p => exact leads_host honest (gentle_acceptBody p.bytes) .accept p
  | floor p => exact leads_host honest (gentle_floorBody p.bytes) .floor p
  | loadBegin p => exact leads_host honest gentle_loadBeginBody .loadBegin p
  | loadData p => exact leads_host honest (gentle_loadDataBody p.bytes) .loadData p
  | loadEnd p => exact leads_host honest gentle_loadEndBody .loadEnd p
  | loadAbort p => exact leads_host honest gentle_loadAbortBody .loadAbort p
  | publish p => exact leads_host honest (gentle_publishBody p.bytes) .publish p
  | hold p =>
    have held (t : State) : Only [.fetch, .hold, .ctxs, .line, .queue, .port, .answer] t (holdBody t) :=
      ((setHold_only true t).next (closeGate_only _) (ps := [.fetch, .hold, .ctxs, .line, .queue, .port, .answer]) rfl rfl).andThen
        (answer_only ..) rfl
    exact leads_job honest hp (fun t => ⟨(held t).frees rfl, (held t).gentle rfl⟩) .hold p
  | resume p =>
    exact leads_job honest hp (fun t =>
      ⟨(((setHold_only false t).frees rfl).trans (steady_fetchFollow _).frees).then (answer_only ..) rfl,
        (((setHold_only false t).gentle rfl).trans (gentle_fetchFollow _)).then (answer_only ..) rfl⟩) .resume p
  | wipe p => exact leads_wipe honest p
  | restart p pins left => exact leads_restart honest p pins left
  | startUpBegins pins => exact leads_startUpBegins honest hp pins
  | hcsHighAfterReset => exact still_hcsHighAfterReset.leads honest hp

end Sys2Proof.Machine
end

section
/-! SUPPORT. AT REST: until the start-up reads have ended no command but those of power, reset and start-up touches anything but
the host port. With it the active-slot law over steps. -/

namespace Sys2Proof.Machine

variable {s t : State}

/-- Every block but the start-up unit and the host port stands as a device reset leaves it (R39). -/
structure Resting (s : State) : Prop where
  flash : s.flash = .reset
  cat : s.cat = .reset
  line : s.line = .reset
  notice : s.notice = .reset
  fetch : s.fetch = .reset
  serve : s.serve = .reset

theorem atRest_iff : AtRest s ↔ (s.startUp.stage = .held ∨ s.startUp.stage = .reading → Resting s) :=
  forall_congr' fun _ => ⟨fun ⟨f, c, l, n, e, v⟩ => ⟨f, c, l, n, e, v⟩, fun h => ⟨h.flash, h.cat, h.line, h.notice, h.fetch, h.serve⟩⟩

theorem resting_deviceReset (p : Pins) (r : State) : Resting (deviceReset p r) := ⟨rfl, rfl, rfl, rfl, rfl, rfl⟩

theorem Resting.portOnly (h : Resting s) (k : PortOnly s t) : Resting t := by
  rw [show t = { s with port := t.port } from k]
  exact ⟨h.flash, h.cat, h.line, h.notice, h.fetch, h.serve⟩

theorem Resting.service (h : Resting s) : s.flash.service = none := by
  rw [h.flash]
  rfl

theorem Resting.free (h : Resting s) : NotProtected s := fun _ service => nomatch h.service.symm.trans service

theorem Resting.link (h : Resting s) : s.line.link = .offline := by
  rw [h.line]
  rfl

theorem Resting.onLineEntry (h : Resting s) : onLineEntry s = none := by
  unfold Machine.onLineEntry
  rw [h.line]
  rfl

theorem Resting.ctxOf (h : Resting s) (i : Fin 4) : (ctxOf s i).state = .idle := by
  unfold Machine.ctxOf
  rw [h.fetch]
  revert i
  decide

/-! ## Commands at rest -/

theorem Resting.conclude (h : Resting s) (k : PortOnly s t) : Still s (conclude s t) := by
  intro u e
  obtain rfl := next_inj e
  rw [settle_portOnly h.free k]
  exact k

variable (rest : Resting s) (down : running s = false)

include rest in
theorem still_lineIdle : Still s (execLineIdle s) := by
  rw [show execLineIdle s = proceed s from if_pos rest.link]
  exact still_proceed rfl

include rest in
theorem still_frameDiscarded (bits : List Bool) (d : Bool) : Still s (execFrameDiscarded bits d s) := by
  rw [show execFrameDiscarded bits d s = proceed s from if_pos rest.link]
  exact still_proceed rfl

include rest in
theorem still_clash : Still s (execClash s) := by
  rw [show execClash s = proceed s from if_pos rest.link]
  exact still_proceed rfl

include rest in
/-- OFFLINE no frame is received (R85). -/
theorem still_received (src : Addr) (format family : Bool) (deliver : State → State) :
    Still s (proceed (receiveFrame src format family deliver s)) ∧ Still s (conclude s (receiveFrame src format family deliver s)) := by
  rw [receiveFrame_offline rest.link]
  exact ⟨still_proceed rfl, rest.conclude rfl⟩

include down in
/-- Before the phase is RUNNING every other host command ends in the port (R158). -/
theorem hostCommand_down {c : HostCommand} (waits : takenInRebuild c = false) (p : Params) (body : State → State) :
    PortOnly s (hostCommand c p body s) := by
  rcases hostCommand_cases c p body s with only | ⟨taken, _⟩
  · exact only
  · simp [down, waits] at taken

include rest down in
/-- At rest only power, reset and start-up change more than the host port (R158, R192). -/
theorem resting_exec {c : Instr} (h : exec c s = .next t) : Resting t ∨ ReadsOver t := by
  have still {o : Host.Outcome State Fault Refusal} (k : Still s o) (h : o = .next t) : Resting t ∨ ReadsOver t :=
    .inl (rest.portOnly (k t h))
  have host {c : HostCommand} (waits : takenInRebuild c = false) (p : Params) (body : State → State) :
      Still s (proceed (hostCommand c p body s)) := still_proceed (hostCommand_down down waits p body)
  have watched {c : HostCommand} (waits : takenInRebuild c = false) (p : Params) (body : State → State) :
      Still s (conclude s (hostCommand c p body s)) := rest.conclude (hostCommand_down down waits p body)
  have none := rest.service
  have quietLine := rest.onLineEntry
  cases c with
  | deviceReset cause pins left =>
    change execDeviceReset cause pins left s = _ at h
    unfold execDeviceReset at h
    split at h
    · exact .inl (next_inj h ▸ resting_deviceReset ..)
    · cases h
  | powerLoss left =>
    change execPowerLoss left s = _ at h
    unfold execPowerLoss at h
    split at h
    · cases h
    · split at h
      · exact .inl (next_inj h ▸ resting_deviceReset ..)
      · cases h
  | startUpBegins pins =>
    change execStartUpBegins pins s = _ at h
    unfold execStartUpBegins at h
    split at h
    · exact .inl (next_inj h ▸ ⟨rest.flash, rest.cat, rest.line, rest.notice, rest.fetch, rest.serve⟩)
    · cases h
  | startUpReadsEnd =>
    rcases kept_startUpReadsEnd (strict := false) rest.free (fun h => nomatch h) h with ⟨_, _, over_⟩ | ⟨p, r, rfl⟩
    · exact .inr (over_ (.inl rfl))
    · exact .inl (resting_deviceReset ..)
  | restart p pins left =>
    change execRestart p pins left s = _ at h
    unfold execRestart at h
    split at h
    · cases h
    · exact still (watched rfl p _) h
  | eraseAttempt l => exact still (o := execEraseAttempt l s) (still_refused (r := .noSuchJob) (by simp only [execEraseAttempt, none])) h
  | spareEntryProgram l => exact still (o := execSpareEntryProgram l s) (still_refused (r := .noSuchJob) (by simp only [execSpareEntryProgram, none])) h
  | programSegment l => exact still (o := execProgramSegment l s) (still_refused (r := .noSuchJob) (by simp only [execProgramSegment, none])) h
  | verifyBlock => exact still (o := execVerifyBlock s) (still_refused (r := .noSuchJob) (by simp only [execVerifyBlock, none])) h
  | readSegment => exact still (o := execReadSegment s) (still_refused (r := .noSuchJob) (by simp only [execReadSegment, none])) h
  | readRange => exact still (o := execReadRange s) (still_refused (r := .noSuchJob) (by simp only [execReadRange, none])) h
  | checkBlock => exact still (o := execCheckBlock s) (still_refused (r := .noSuchJob) (by simp only [execCheckBlock, none])) h
  | setMark l => exact still (o := execSetMark l s) (still_refused (r := .noSuchJob) (by simp only [execSetMark, none])) h
  | appendRecord l => exact still (o := execAppendRecord l s) (still_refused (r := .noSuchJob) (by simp only [execAppendRecord, none])) h
  | overtime l => exact still (o := execOvertime l s) (still_refused (r := .noSuchJob) (by simp only [execOvertime, none])) h
  | lineIdle => exact still (still_lineIdle rest) h
  | contentionLost => exact still (o := execContentionLost s) (still_refused (r := .nothingOnLine) (by simp only [execContentionLost, quietLine])) h
  | bitError => exact still (o := execBitError s) (still_refused (r := .nothingOnLine) (by simp only [execBitError, quietLine])) h
  | attemptEnd echoed => exact still (o := execAttemptEnd echoed s) (still_refused (r := .nothingOnLine) (by simp only [execAttemptEnd, quietLine])) h
  | frameDiscarded bits d => exact still (still_frameDiscarded rest bits d) h
  | clash => exact still (still_clash rest) h
  | releaseReceived src k n => exact still (still_received rest ..).2 h
  | offerReceived src k b m => exact still (still_received rest ..).1 h
  | askReceived src target k b m => exact still (still_received rest ..).1 h
  | segmentReceived src k b g d => exact still (still_received rest ..).1 h
  | noticeReceived src n => exact still (still_received rest ..).2 h
  | joinTimer => exact still (o := execJoinTimer s) (still_refused (r := .timerNotRunning) (by simp only [execJoinTimer, rest.line, LineController.reset])) h
  | listenOnlyTimer => exact still (o := execListenOnlyTimer s) (still_refused (r := .timerNotRunning) (by simp only [execListenOnlyTimer, rest.line, LineController.reset])) h
  | periodicTimer => exact still (o := execPeriodicTimer s) (still_refused (r := .timerNotRunning) (by simp only [execPeriodicTimer, rest.line, LineController.reset])) h
  | spacingTimer => exact still (o := execSpacingTimer s) (still_refused (r := .timerNotRunning) (by simp only [execSpacingTimer, rest.line, LineController.reset])) h
  | peerAgedOut x =>
    exact still (o := execPeerAgedOut x s) (still_refused (r := .noSuchPeer) (by
      simp only [execPeerAgedOut, findPeer, rest.notice, NoticeUnit.reset, List.find?_nil])) h
  | claimWindow i =>
    exact still (o := execClaimWindow i s) (still_refused (r := .timerNotRunning) (if_neg (by rw [rest.ctxOf i]; exact nofun))) h
  | silenceTimer i =>
    exact still (o := execSilenceTimer i s) (still_refused (r := .timerNotRunning) (if_neg (by rw [rest.ctxOf i]; exact nofun))) h
  | deferralTimer =>
    exact still (o := execDeferralTimer s) (still_refused (r := .timerNotRunning) (by
      simp only [execDeferralTimer, rest.fetch, FetchEngine.reset])) h
  | serveDelay =>
    exact still (o := execServeDelay s) (still_refused (r := .timerNotRunning) (by
      simp only [execServeDelay, waitingEntry, rest.serve, ServeEngine.reset, List.find?_nil])) h
  | transactionBegin => exact still still_transactionBegin h
  | answerRead n => exact still (still_answerRead n) h
  | badFrame bytes => exact still (still_badFrame bytes) h
  | frameIgnored bytes => exact still (still_frameIgnored bytes) h
  | hcsHighAfterReset => exact still still_hcsHighAfterReset h
  | idReport p => exact still (still_report idBody_portOnly .idReport p) h
  | stat p => exact still (still_report statBody_portOnly .stat p) h
  | event p => exact still (still_report (eventBody_portOnly p.bytes) .event p) h
  | ident p => exact still (host rfl p _) h
  | slots p => exact still (host rfl p _) h
  | blocks p => exact still (host rfl p _) h
  | peers p => exact still (host rfl p _) h
  | read p => exact still (host rfl p _) h
  | checksum p => exact still (host rfl p _) h
  | hold p => exact still (host rfl p _) h
  | resume p => exact still (host rfl p _) h
  | accept p => exact still (watched rfl p _) h
  | floor p => exact still (watched rfl p _) h
  | loadBegin p => exact still (watched rfl p _) h
  | loadData p => exact still (watched rfl p _) h
  | loadEnd p => exact still (watched rfl p _) h
  | loadAbort p => exact still (watched rfl p _) h
  | publish p => exact still (watched rfl p _) h
  | wipe p => exact still (watched rfl p _) h

theorem resting_elapse (rest : Resting s) (ms : Nat) : Resting (elapse ms s) := by
  have fetch : (elapse ms s).fetch = .reset := by
    unfold elapse
    rw [rest.fetch]
    rfl
  have line : (elapse ms s).line = .reset := by
    unfold elapse
    rw [rest.line]
    rfl
  have notice : (elapse ms s).notice = .reset := by
    unfold elapse
    rw [rest.notice]
    rfl
  have serve : (elapse ms s).serve = .reset := by
    unfold elapse
    rw [rest.serve]
    rfl
  exact ⟨rest.flash, rest.cat, line, notice, fetch, serve⟩

/-! ## Steps -/

theorem honest_of_notProtected (hp : NotProtected s) : Honest false s := fun v service =>
  ⟨fun waits => absurd waits (hp v service), fun h => nomatch h⟩

theorem honest_of_activeSpared (h : ActiveSpared s) : Honest true s := fun v service =>
  ⟨fun waits => absurd waits (h v service).1, fun _ names => absurd names (h v service).2⟩

theorem activeSpared_of_honest (hp : NotProtected s) (honest : Honest true s) : ActiveSpared s := fun v service =>
  ⟨hp v service, fun names => hp v service ((honest v service).2 rfl names)⟩

theorem Kept.notProtected {strict : Bool} (h : Kept strict s t) : NotProtected t := by
  rcases h with ⟨free, _⟩ | ⟨p, r, rfl⟩
  · exact free
  · exact notProtected_deviceReset p r

theorem Kept.activeSpared (h : Kept true s t) : ActiveSpared t := by
  rcases h with ⟨free, honest, _⟩ | ⟨p, r, rfl⟩
  · exact activeSpared_of_honest free honest
  · exact fun _ service => nomatch service

theorem readsOver_iff : ReadsOver s ↔ ¬ (s.startUp.stage = .held ∨ s.startUp.stage = .reading) := by
  unfold ReadsOver
  cases s.startUp.stage <;> simp

/-- A command keeps it that the part rests until its start-up reads have ended (R39, R192). -/
theorem atRest_exec {c : Instr} (spared : ActiveSpared s) (rest : AtRest s) (h : exec c s = .next t) : AtRest t := by
  rw [atRest_iff] at rest ⊢
  intro early
  by_cases over_ : ReadsOver s
  · have hp : NotProtected s := fun v service => (spared v service).1
    rcases leads_exec (honest_of_activeSpared spared) hp (fun _ => atRest_iff.mpr rest) c t h with ⟨_, _, up⟩ | ⟨p, r, rfl⟩
    · exact absurd early (readsOver_iff.mp (up over_))
    · exact resting_deviceReset p r
  · have resting := rest (not_not.mp (mt readsOver_iff.mpr over_))
    have down : running s = false := by
      unfold running
      exact decide_eq_false fun stage => over_ (.inr stage)
    rcases resting_exec resting down h with rests | up
    · exact rests
    · exact absurd early (readsOver_iff.mp up)

theorem atRest_elapse (rest : AtRest s) (ms : Nat) : AtRest (elapse ms s) := by
  rw [atRest_iff] at rest ⊢
  exact fun early => resting_elapse (rest early) ms

/-! ## A PROTECTED job taken as the one before it ends -/

theorem pumpWork_of_empty (h : s.cat.work = []) (n : Nat) : pumpWork n s = s := by
  cases n with
  | zero => rfl
  | succ n =>
    unfold pumpWork
    rw [h]

/-- With one job waiting, the end of a service takes it. -/
theorem endService_of_single {f : Sequencer} {j : Job} (pick : s.flash.pick = some (j, f)) (work : s.cat.work = []) :
    endService s = { s with flash := { f with service := some (takeJob s j) } } := by
  have taken : pickJob s = { s with flash := { f with service := some (takeJob s j) } } := by
    unfold pickJob
    rw [pick]
  unfold endService
  rw [taken]
  exact pumpWork_of_empty (s := { s with flash := { f with service := some (takeJob s j) } }) work 8

theorem endService_of_none (none : s.flash.noJobs = true) (work : s.cat.work = []) :
    endService s = { s with flash := { s.flash with service := .none } } := by
  have empty (q : Queue) := jobs_of_noJobs none q
  have pick : s.flash.pick = .none := by
    have record : s.flash.recordQ = [] := empty .record
    have fetch : s.flash.fetchQ = [] := empty .fetch
    have serve : s.flash.serveQ = [] := empty .serve
    have host : s.flash.hostQ = [] := empty .host
    simp [Sequencer.pick, Sequencer.pickServeHost, record, fetch, serve, host]
  have taken : pickJob s = { s with flash := { s.flash with service := .none } } := by
    unfold pickJob
    rw [pick]
  unfold endService
  rw [taken]
  exact pumpWork_of_empty (s := { s with flash := { s.flash with service := .none } }) work 8

theorem fetchFollow_of_closed (closed : gateOpen s = false) : fetchFollow s = s := by
  have never : mayAsk s = false := by simp [mayAsk, closed]
  have held : submitHeld s = s := by
    unfold submitHeld ctxIds
    simp [never]
  have opened : openOne s = s := if_neg (by simp [never])
  unfold fetchFollow openContexts
  rw [held, opened, opened, opened, opened]

theorem exec_readSegment {v : Service} {x : Slot} {b : Block} {g : Seg} {o : OutBufId} (service : s.flash.service = some v)
    (job : v.job = .readSegment x b g o) : exec .readSegment s = .next (settle s (endService (readResult o
      (some (segmentBytes s.mem (currentUnit s.flash.spares x b) g.val)) s))) := by
  change execReadSegment s = _
  unfold execReadSegment conclude
  simp only [service, job]

theorem readResult_of_free {o : OutBufId} (h : bufOf s o = .free) (d : Option (List Byte)) : readResult o d s = s := by
  unfold readResult
  simp only [h]

theorem ctxOf_releaseCtx (i : Fin 4) (s : State) : ctxOf (releaseCtx i s) i = .cleared := setCtx_get ..

theorem noJobs_releaseCtx (h : s.flash.noJobs = true) (i : Fin 4) : (releaseCtx i s).flash.noJobs = true := by
  have withdrawn (t : State) (h : t.flash.noJobs = true) : (withdrawJobs .fetch (isJobOf i) t).flash.noJobs = true := by
    have fetch : t.flash.jobs .fetch = [] := jobs_of_noJobs h .fetch
    unfold withdrawJobs
    rw [fetch]
    simp only [Sequencer.noJobs, Bool.and_eq_true, decide_eq_true_eq] at h ⊢
    exact ⟨⟨⟨h.1.1.1, rfl⟩, h.1.2⟩, h.2⟩
  have orphaned : (orphanService s).flash.noJobs = true := h
  unfold releaseCtx
  extract_lets c taken held t u
  have kept : (if taken then orphanService s else s).flash.noJobs = true := by
    split
    · exact orphaned
    · exact h
  exact withdrawn _ kept

/-- A guarded job of a fetch context ends PROTECTED: its context is released (R25, R121, R122). -/
theorem protectedReturn_fetch {v : Service} {i : Fin 4} (waits : guardedSlot v.job = some s.cat.activeSlot)
    (job : isJobOf i v.job = true) (live : v.orphan = false) :
    ∃ b, protectedReturn v s = endService (endCtx i (blockEvent .isProtected b (jobReturned i s))) := by
  unfold isJobOf at job
  split at job
  · rename_i k x b erase
    obtain rfl : i = k := of_decide_eq_true job
    refine ⟨b, ?_⟩
    simp only [protectedReturn, eraseReturn, erase, live, Bool.false_eq_true, if_false, fetchErased]
  · rename_i k x b g d program
    obtain rfl : i = k := of_decide_eq_true job
    refine ⟨b, ?_⟩
    simp only [protectedReturn, programReturn, program, live, Bool.false_eq_true, if_false, fetchProgrammed]
  · rename_i verify
    rw [verify] at waits
    cases waits
  · cases job

/-- The one job that waits, guarded and of a fetch context, ends in the event that takes it (R25). -/
theorem readSegment_takesProtected {i : Fin 4} {j : Job} (names : guardedSlot j = some s.cat.activeSlot)
    (own : isJobOf i j = true) (record : s.flash.recordQ = []) (fetch : s.flash.fetchQ = [j]) (serve : s.flash.serveQ = [])
    (host : s.flash.hostQ = []) (work : s.cat.work = []) (closed : gateOpen s = false) :
    let t := settle s (endService s)
    t.flash.service = none ∧ t.flash.noJobs = true ∧ t.mem = s.mem ∧ (ctxOf t i).state = .idle ∧
      t.cat.activeSlot = s.cat.activeSlot ∧ t.port = s.port := by
  let taken : State := { s with flash := { s.flash with fetchQ := [], fetchRun := 0, service := some (takeJob s j) } }
  have takes : endService s = taken := by
    refine endService_of_single (f := { s.flash with fetchQ := [], fetchRun := 0 }) ?_ work
    simp [Sequencer.pick, record, fetch, serve, host]
  have waits : (takeJob s j).op = .protectedReturn := (takeJob_protected_iff s j).mpr (decide_eq_true names)
  have live : (takeJob s j).orphan = false := by cases j <;> rfl
  obtain ⟨b, returns⟩ := protectedReturn_fetch (s := taken) (v := takeJob s j) (i := i) (by rwa [takeJob_job]) (by rwa [takeJob_job]) live
  let told : State := blockEvent .isProtected b (jobReturned i taken)
  let freed : State := releaseCtx i told
  have toldOnly : Only [.fetch, .ctxs, .cat, .slots] taken told :=
    (jobReturned_only i taken).next (blockEvent_only ..) rfl rfl
  have released : Only ([.cat, .slots] ++ releaseParts) taken freed := toldOnly.next (releaseCtx_only i told) rfl rfl
  have idle : fetchFollow freed = freed := by
    refine fetchFollow_of_closed ?_
    have gate : gateOpen freed = gateOpen taken := by
      unfold gateOpen running
      rw [released.stage rfl, released.stagingState rfl, released.frozen rfl, released.hold rfl]
    exact gate.trans closed
  have none : freed.flash.noJobs = true := by
    refine noJobs_releaseCtx ?_ i
    rw [toldOnly.flash rfl]
    simp [taken, Sequencer.noJobs, record, serve, host]
  have ends : protectedReturn (takeJob s j) taken = { freed with flash := { freed.flash with service := .none } } := by
    refine returns.trans ?_
    unfold endCtx
    rw [idle]
    exact endService_of_none none ((released.work rfl).trans work)
  let ended : State := { freed with flash := { freed.flash with service := .none } }
  have drained : drainProtected (jobsWaiting taken + 1) taken = ended := by
    have count : jobsWaiting taken = 0 := by simp [jobsWaiting, taken, record, serve, host, work]
    rw [count]
    unfold drainProtected
    have service : taken.flash.service = some (takeJob s j) := rfl
    simp only [service, waits, if_true, ends]
    rfl
  have content : noticeContent ended = noticeContent s := by
    have steady : Steady taken freed :=
      (((jobReturned_only i taken).steady rfl).trans (steady_blockEvent .isProtected nofun b _)).trans (steady_releaseCtx i _)
    exact steady.content
  have eq : settle s (endService s) = ended := by
    rw [takes]
    unfold settle
    rw [drained, noticeWatch_eq content.symm]
  rw [eq]
  refine ⟨rfl, none, released.mem rfl, ?_, released.activeSlot rfl, released.port rfl⟩
  have cleared : ctxOf ended i = .cleared := ctxOf_releaseCtx i told
  rw [cleared]
  rfl

/-- A job with the wipe mark is taken whichever slot it names (R25). -/
theorem readSegment_takesWipe {x : Slot} {b : Block} (record : s.flash.recordQ = []) (fetch : s.flash.fetchQ = [])
    (serve : s.flash.serveQ = []) (host : s.flash.hostQ = [.eraseUnit .wipe x b]) (work : s.cat.work = []) :
    let t := settle s (endService s)
    t.mem = s.mem ∧
      t.flash.service = some { job := .eraseUnit .wipe x b, op := .erase 0, orphan := false, resolved := none } := by
  let job : Job := .eraseUnit .wipe x b
  let taken : State := { s with flash := { s.flash with hostQ := [], fetchRun := 0, turn := .serve, service := some (takeJob s job) } }
  have takes : endService s = taken := by
    refine endService_of_single (f := { s.flash with hostQ := [], fetchRun := 0, turn := .serve }) ?_ work
    simp [Sequencer.pick, Sequencer.pickServeHost, record, fetch, serve, host, job]
  have free : NotProtected taken := by
    intro v service
    obtain rfl := Option.some.inj service
    exact nofun
  have eq : settle s (endService s) = taken := by
    rw [takes]
    exact settle_eq free rfl
  rw [eq]
  exact ⟨rfl, rfl⟩

/-- Settles O10: every command keeps the law (`leads_exec`) and the rest before start-up has ended (`atRest_exec`); the rest is the
two takes. -/
theorem protectedJobsEnd : Obligations.ProtectedJobsEnd := by
  unfold Obligations.ProtectedJobsEnd
  refine ⟨fun s t h => ?_, fun s v y c g o service job free record serve work => ?_⟩
  · obtain rfl | ⟨c, rest, -, run⟩ := step_cases h
    · exact ⟨(frees_elapse 1 s).free, fun spared atRest =>
        ⟨activeSpared_of_honest ((frees_elapse 1 s).free fun v hv => (spared v hv).1)
          ((gentle_elapse 1 s).honest true (honest_of_activeSpared spared)), atRest_elapse atRest 1⟩⟩
    · refine ⟨fun hp => ?_, fun spared atRest => ⟨?_, ?_⟩⟩
      · have free : NotProtected (s.withPending rest) := hp
        exact (leads_exec (honest_of_notProtected free) free (fun h => nomatch h) c t run).notProtected
      · have spared' : ActiveSpared (s.withPending rest) := spared
        exact (leads_exec (honest_of_activeSpared spared') (fun v hv => (spared' v hv).1) (fun _ => atRest) c t run).activeSpared
      · exact atRest_exec (s := s.withPending rest) spared atRest run
  · have run : exec .readSegment s = .next (settle s (endService s)) := by
      rw [exec_readSegment service job, readResult_of_free free]
    refine ⟨fun i j names own fetch host closed => ⟨_, run, ?_⟩, fun x b fetch host => ⟨_, run, ?_⟩⟩
    · exact readSegment_takesProtected names own record fetch serve host work closed
    · exact readSegment_takesWipe record fetch serve host work

end Sys2Proof.Machine
end

section
/-! SUPPORT. ARRAY: the ends of erases, spare map entries and segment programs. What each leaves in the array, and how a failed one
goes on: another attempt, the next spare, or DEAD. -/

namespace Sys2Proof.Machine

variable {s t : State} {v : Service} {n : Nat} {p : Fin 8} {left : Left} {x : Slot} {b : Block}

/-! ## The commands as the model computes them -/

theorem exec_eraseAttempt (service : s.flash.service = some v) (op : v.op = .erase n) (left : Left) :
    exec (.eraseAttempt left) s = .next (settle s (eraseEnds v n left s)) := by
  change execEraseAttempt left s = _
  unfold execEraseAttempt conclude
  simp only [service, op]

theorem exec_spareEntryProgram (service : s.flash.service = some v) (op : v.op = .entry p)
    (legal : entryLeftLegal s v left = true) :
    exec (.spareEntryProgram left) s = .next (settle s (entryEnds v p left s)) := by
  change execSpareEntryProgram left s = _
  unfold execSpareEntryProgram conclude
  simp only [service, op, legal, if_true]

theorem exec_programSegment {req : Requester} {g : Seg} {d : List Byte} (service : s.flash.service = some v) (op : v.op = .main)
    (job : v.job = .programSegment req x b g d) (left : Left) :
    exec (.programSegment left) s = .next (settle s (segmentEnds v left s)) := by
  change execProgramSegment left s = _
  unfold execProgramSegment conclude
  simp only [service, op, job]

theorem exec_programNode {f : BitVec 16} (service : s.flash.service = some v) (op : v.op = .main) (job : v.job = .programNode f)
    (left : Left) : exec (.programSegment left) s = .next (settle s (nodeEnds v f left s)) := by
  change execProgramSegment left s = _
  unfold execProgramSegment conclude
  simp only [service, op, job]

theorem segmentEnds_eq {req : Requester} {g : Seg} {d : List Byte} (job : v.job = .programSegment req x b g d) (left : Left) :
    segmentEnds v left s =
      if readBackMatches s.mem (operationLeaves s v left) (currentUnit s.flash.spares x b) (128 * g.val) d then
        endService (programReturn v .done (leaveContent v left s))
      else retire v (leaveContent v left s) := by
  simp only [segmentEnds, programRun, job]
  rfl

/-! ## The array -/

theorem operationLeaves_erase (op : v.op = .erase n) (left : Left) :
    operationLeaves s v left = eraseLeaving s.mem (eraseTarget s v.job) left := by
  simp only [operationLeaves, op]

theorem operationLeaves_program {u o : Nat} {pattern : List Byte} (op : v.op = .main) (run : programRun s v.job = some (u, o, pattern))
    (left : Left) : operationLeaves s v left = programLeaving s.mem u o pattern left := by
  simp only [operationLeaves, operationProgram, op, run]

/-- Whatever follows the operation in its event, the array is as the operation has left it. -/
theorem mem_of_work (work : Work (leaveContent v left s) t) : (settle s t).mem = operationLeaves s v left :=
  work.op_settle.frame.1

theorem mem_eraseEnds (v : Service) (n : Nat) (left : Left) (s : State) :
    (settle s (eraseEnds v n left s)).mem = operationLeaves s v left := by
  refine mem_of_work ?_
  unfold eraseEnds
  dsimp only
  split
  · exact (Work.refl _).op_attemptPassed
  · exact (Work.refl _).op_attemptFailed

theorem mem_segmentEnds {req : Requester} {g : Seg} {d : List Byte} (job : v.job = .programSegment req x b g d) (left : Left) :
    (settle s (segmentEnds v left s)).mem = operationLeaves s v left := by
  refine mem_of_work ?_
  rw [segmentEnds_eq job]
  split
  · exact (Work.refl _).op_programReturn.op_endService
  · exact (Work.refl _).op_retire

/-- Of the units erased only C0 holds a byte that reads otherwise than FFh unlisted, and it is never erased (R4, R6, R37). -/
theorem eraseTarget_ne (s : State) {j : Job} (h : j ≠ .eraseControl .c0) : eraseTarget s j ≠ 512 := by
  unfold eraseTarget
  split
  · rename_i u
    cases u with
    | c0 => exact absurd rfl h
    | _ => decide
  · split
    · exact currentUnit_ne_control _ _ _ (by decide)
    · decide

/-- Settles O15: the erase's content reads back from the canonical array (`read_eraseLeaving`), whatever follows. -/
theorem eraseAttemptContent : Obligations.EraseAttemptContent := by
  unfold Obligations.EraseAttemptContent
  intro s v n left wf service op job
  refine ⟨_, exec_eraseAttempt service op left, ?_⟩
  rw [mem_eraseEnds, operationLeaves_erase op]
  have target := eraseTarget_ne s job
  generalize eraseTarget s v.job = u at target
  refine ⟨fun a outside => ?_, fun i within => ?_⟩
  · rw [read_eraseLeaving wf, if_neg (by omega)]
  · have place : unitAddr u 0 ≤ unitAddr u i ∧ unitAddr u i < unitAddr u 2048 := by
      unfold unitAddr
      omega
    have offset : unitAddr u i - unitAddr u 0 = i := by
      unfold unitAddr
      omega
    rw [read_eraseLeaving wf, if_pos place, offset, unlisted_erased target within]

/-- Settles O19: the program's run reads back from the canonical array (`read_programLeaving`), whatever follows. -/
theorem segmentProgramContent : Obligations.SegmentProgramContent := by
  unfold Obligations.SegmentProgramContent
  intro s v req x b g d left wf service op job length
  refine ⟨_, exec_programSegment service op job left, ?_⟩
  have run : programRun s v.job = some (currentUnit s.flash.spares x b, 128 * g.val, d) := by rw [job]; rfl
  rw [mem_segmentEnds job, operationLeaves_program op run]
  generalize currentUnit s.flash.spares x b = u
  have ends : unitAddr u (128 * g.val + 128) = unitAddr u (128 * g.val) + 128 := by
    unfold unitAddr
    omega
  refine ⟨fun a outside => ?_, fun expected i within => ?_⟩
  · rw [read_programLeaving wf, length, if_neg (by omega)]
  · subst expected
    have place : unitAddr u (128 * g.val + i) = unitAddr u (128 * g.val) + i := by
      unfold unitAddr
      omega
    rw [place, read_programLeaving wf, length, if_pos (by omega), Nat.add_sub_cancel_left, programLeft,
      getD_programmed _ _ (by rw [length_readBytes, length]) _ (by omega), getD_readBytes _ _ _ _ within]

/-! ## Another attempt, and the next spare -/

theorem retire_of_spare (spare : nextSpare s.flash.spares = some p) (v : Service) :
    retire v s = setService { v with op := .entry p } s := by
  unfold retire
  rw [spare]

theorem attemptFailed_again (few : n < 2) (v : Service) (s : State) :
    attemptFailed v n s = setService { v with op := .erase (n + 1) } s := if_pos few

theorem attemptFailed_third (third : 2 ≤ n) (block : blockOf v.job = some (x, b)) (s : State) : attemptFailed v n s = retire v s := by
  unfold attemptFailed
  rw [if_neg (by omega)]
  split
  · rename_i u job
    rw [job] at block
    cases block
  · rfl

theorem eraseEnds_failed (dirty : blankCheck (operationLeaves s v left) (eraseTarget s v.job) = false) (n : Nat) :
    eraseEnds v n left s = attemptFailed v n (leaveContent v left s) :=
  if_neg (by rw [leaveContent_mem, dirty]; exact nofun)

/-- A job that goes on with another operation ends its event as it stands. -/
theorem settle_setService (goes : v.op ≠ .protectedReturn) (content : noticeContent s = noticeContent t) :
    settle s (setService v t) = setService v t := by
  refine settle_eq (fun w service => ?_) (content.trans rfl)
  obtain rfl := Option.some.inj service
  exact goes

/-- An operation that has left its content, and a job that goes on with another. -/
theorem settle_goesOn {w : Service} (goes : w.op ≠ .protectedReturn) {m : List Host.Cell} (leaves : operationLeaves s v left = m) :
    settle s (setService w (leaveContent v left s)) = { s with mem := m, flash := { s.flash with service := some w } } := by
  have content : noticeContent s = noticeContent (leaveContent v left s) := rfl
  rw [settle_setService goes content]
  subst leaves
  rfl

theorem recordJobFailed_eraseControl {u : ControlUnit} (noWipe : NoWipe s) (third : 2 ≤ n) (job : v.job = .eraseControl u)
    (dirty : blankCheck (operationLeaves s v left) (eraseTarget s v.job) = false) :
    RecordJobFailed s (settle s (eraseEnds v n left s)) (controlNumber u) 9 := by
  have ends : eraseEnds v n left s = endService (controlFailed u (.eraseControl u) (leaveContent v left s)) := by
    rw [eraseEnds_failed dirty]
    unfold attemptFailed
    rw [if_neg (by omega), job]
  rw [ends]
  exact recordJobFailed_settled (s := leaveContent v left s) noWipe u (.eraseControl u) s

/-- Settles O16: the failed attempt's three ways on, and the failed program's. -/
theorem failedAttemptsRetire : Obligations.FailedAttemptsRetire := by
  unfold Obligations.FailedAttemptsRetire
  intro s v left service
  refine ⟨fun n op dirty => ?_, fun req x b g d p op job mismatch spare => ?_⟩
  · have leaves := operationLeaves_erase (s := s) op left
    rw [← leaves] at dirty
    refine ⟨fun few => ?_, fun third x b p block spare => ?_, fun third u job noWipe => ?_⟩
    · rw [exec_eraseAttempt service op, eraseEnds_failed dirty, attemptFailed_again few,
        settle_goesOn (w := { v with op := .erase (n + 1) }) nofun leaves]
    · rw [exec_eraseAttempt service op, eraseEnds_failed dirty, attemptFailed_third third block,
        retire_of_spare (s := leaveContent v left s) spare,
        settle_goesOn (w := { v with op := .entry p }) nofun leaves]
    · exact ⟨_, exec_eraseAttempt service op left, recordJobFailed_eraseControl noWipe third job dirty⟩
  · rw [exec_programSegment service op job, segmentEnds_eq job, if_neg (by rw [mismatch]; exact nofun),
      retire_of_spare (s := leaveContent v left s) spare,
      settle_goesOn (w := { v with op := .entry p }) nofun rfl]

/-! ## Spare map entries -/

theorem entryContent_of_block (block : blockOf v.job = some (x, b)) (p : Fin 8) : entryContent v p = spareEntryBytes x b p := by
  unfold entryContent
  rw [block]

theorem operationLeaves_entry (op : v.op = .entry p) (left : Left) : operationLeaves s v left =
    programLeaving s.mem 513 0 (segmentPattern (8 * p.val) (entryContent v p)) left := by
  simp only [operationLeaves, operationProgram, op]

theorem byteAt_segmentPattern_outside {o i : Nat} {bytes : List Byte} (within : i < 128) (outside : i < o ∨ o + bytes.length ≤ i) :
    byteAt (segmentPattern o bytes) i = erasedByte := by
  unfold byteAt segmentPattern
  rw [List.getD_eq_getElem?_getD, List.append_assoc]
  rcases outside with before | after
  · rw [List.getElem?_append_left (by simpa using before), List.getElem?_replicate_of_lt before]
    rfl
  · rw [List.getElem?_append_right (by simp; omega), List.getElem?_append_right (by simp; omega)]
    rw [List.getElem?_replicate_of_lt (by simp; omega)]
    rfl

theorem and_erasedByte (c : Byte) : c &&& erasedByte = c := BitVec.and_allOnes

/-- An entry's program changes the eight bytes of the entry alone (R3, R8). -/
theorem read_entry_outside (wf : Memory.wf s.mem) (op : v.op = .entry p) (block : blockOf v.job = some (x, b)) {a : Nat}
    (outside : a < unitAddr 513 (8 * p.val) ∨ unitAddr 513 (8 * p.val + 8) ≤ a) :
    Memory.read (operationLeaves s v .expected) a = Memory.read s.mem a := by
  have room := p.isLt
  have length : (segmentPattern (8 * p.val) (spareEntryBytes x b p)).length = 128 :=
    length_segmentPattern (by rw [length_spareEntryBytes]; omega)
  rw [operationLeaves_entry op, entryContent_of_block block, read_programLeaving wf, length]
  by_cases inside : unitAddr 513 0 ≤ a ∧ a < unitAddr 513 0 + 128
  · obtain ⟨i, rfl⟩ := Nat.exists_eq_add_of_le inside.1
    have within : i < 128 := by omega
    have off : i < 8 * p.val ∨ 8 * p.val + (spareEntryBytes x b p).length ≤ i := by
      rw [length_spareEntryBytes]
      unfold unitAddr at outside
      omega
    rw [if_pos inside, Nat.add_sub_cancel_left, programLeft,
      getD_programmed _ _ (by rw [length_readBytes, length]) _ (by omega), getD_readBytes _ _ _ _ within,
      byteAt_segmentPattern_outside within off, and_erasedByte]
  · rw [if_neg inside]

/-- The next state of an entry's program that reads back (R27). -/
theorem entryEnds_passed (block : blockOf v.job = some (x, b))
    (matched : readBytes (operationLeaves s v left) (unitAddr 513 (8 * p.val)) 8 = spareEntryBytes x b p) :
    settle s (entryEnds v p left s) = { s with
      mem := operationLeaves s v left
      flash := { s.flash with spares := s.flash.spares.set p (.valid x b), service := some { v with op := .erase 0 } }
      port := { s.port with
        events := raiseIn .unitRetired (retiredDetail (currentUnit s.flash.spares x b) (518 + p.val)) s.port.events } } := by
  have ends : entryEnds v p left s = entryPassed v p (leaveContent v left s) :=
    if_pos (by rw [leaveContent_mem, entryContent_of_block block]; exact matched)
  rw [ends]
  unfold entryPassed
  simp only [block]
  exact settle_setService (v := { v with op := .erase 0 }) nofun rfl

/-- The next state of an entry's program that does not, while a position is left (R28). -/
theorem entryFailed_again {q : Fin 8} (spare : nextSpare (s.flash.spares.set p .void) = some q) (v : Service) :
    entryFailed v p s = setService { v with op := .entry q } (raise .arrayFault (faultDetail 513 (jobCode v.job))
      { s with flash := { s.flash with spares := s.flash.spares.set p .void } }) :=
  retire_of_spare (s := raise .arrayFault (faultDetail 513 (jobCode v.job))
    { s with flash := { s.flash with spares := s.flash.spares.set p .void } }) spare v

/-- Settles O18: the entry's two ends, and its eight bytes. -/
theorem spareEntryOutcome : Obligations.SpareEntryOutcome := by
  unfold Obligations.SpareEntryOutcome
  intro s v p left x b service op block legal
  refine ⟨fun matched => ?_, fun mismatch q spare => ?_, fun expected wf a outside => ?_⟩
  · rw [exec_spareEntryProgram service op legal, entryEnds_passed block matched]
  · have ends : entryEnds v p left s = entryFailed v p (leaveContent v left s) :=
      if_neg (by rw [leaveContent_mem, entryContent_of_block block]; exact mismatch)
    rw [exec_spareEntryProgram service op legal, ends, entryFailed_again (s := leaveContent v left s) spare]
    exact congrArg _ (settle_setService (v := { v with op := .entry q }) nofun rfl)
  · subst expected
    exact read_entry_outside wf op block outside

/-! ## The ends of host jobs -/

theorem waitingGuarded_zero_iff : waitingGuarded s = 0 ↔ QueuesSpareActive s := by
  unfold waitingGuarded QueuesSpareActive
  rw [List.countP_eq_zero]
  exact forall₂_congr fun j _ => not_congr (takeJob_protected_iff s j).symm

/-- While a job is in service, no job that names the active slot comes to wait (R25). -/
theorem Gentle.queues (gentle : Gentle s t) (service : s.flash.service = some v) (queues : QueuesSpareActive s) :
    QueuesSpareActive t := by
  obtain ⟨w, service', _, op⟩ := gentle.busy v service
  have same : inProtected t = inProtected s := by
    unfold inProtected
    rw [service, service', Option.any_some, Option.any_some, op]
  have jobs := gentle.jobs
  have none := waitingGuarded_zero_iff.mpr queues
  unfold guardedJobs at jobs
  rw [same] at jobs
  exact waitingGuarded_zero_iff.mp (by omega)

/-- The end of a service, when no waiting job names the active slot, ends its event; what it leaves of the part is what the job's
result has left. -/
theorem settle_ended {u : State} (gentle : Gentle s u) (service : s.flash.service = some v) (queues : QueuesSpareActive s)
    (content : noticeContent s = noticeContent u) : settle s (endService u) = endService u :=
  settle_endService (gentle.queues service queues) content

theorem DistributionKept.of_only {ps : List Part} (h : Only ps s t) (startUp : ps.elem .startUp = false)
    (line : ps.elem .line = false) (notice : ps.elem .notice = false) (fetch : ps.elem .fetch = false)
    (serve : ps.elem .serve = false) : DistributionKept s t :=
  ⟨h.startUp startUp, h.line line, h.notice notice, h.fetch fetch, h.serve serve⟩

theorem DistributionKept.endService (h : DistributionKept s t) : DistributionKept s (endService t) := by
  have only := endService_only t
  obtain ⟨startUp, line, notice, fetch, serve⟩ := h
  exact ⟨only.startUp.trans startUp, only.line.trans line, only.notice.trans notice, only.fetch.trans fetch,
    only.serve.trans serve⟩

theorem CatalogueKept.of_eq (h : t.cat = s.cat) : CatalogueKept s t := by
  unfold CatalogueKept
  rw [h]

theorem CatalogueKept.endService (h : CatalogueKept s t) : CatalogueKept s (endService t) := by
  have only : (Machine.endService t).cat = { t.cat with work := (Machine.endService t).cat.work } := by
    conv_lhs => rw [show Machine.endService t = _ from endService_only t]
  unfold CatalogueKept at *
  rw [only, h]

theorem Answered.endService {r : ResultCode} {payload : List Byte} (h : Answered t r payload) :
    Answered (endService t) r payload := by
  have only := (endService_only t).port
  unfold Answered at *
  rw [only]
  exact h

theorem answered_answer (r : ResultCode) (payload : List Byte) (s : State) : Answered (answer r payload s) r payload :=
  ⟨rfl, rfl, rfl⟩

/-- Settles O22: the read-back's two answers. -/
theorem nodeProgramEndsIdent : Obligations.NodeProgramEndsIdent := by
  unfold Obligations.NodeProgramEndsIdent
  intro s v f left service op job queues
  let written : State := leaveContent v left s
  let done : Bool := readBackMatches s.mem (operationLeaves s v left) 512 128 (nodeBytes f)
  let told : State := nodeReturn done f written
  have only : Only [.mem, .port, .events, .answer] s told := by
    refine (leaveContent_only v left s).next (Only.ite (fun _ => (answer_only ..).mono rfl) fun _ => ?_) rfl rfl
      (qs := [.port, .events, .answer])
    exact (raise_only ..).next (answer_only ..) rfl rfl
  have ends : exec (.programSegment left) s = .next (endService told) := by
    rw [exec_programNode service op job]
    exact congrArg _ (settle_ended (only.gentle rfl) service queues (only.steady rfl).content.symm)
  have mem : told.mem = operationLeaves s v left := by
    unfold told nodeReturn
    split <;> rfl
  refine ⟨_, ends, (endService_only told).mem.trans mem, (DistributionKept.of_only only rfl rfl rfl rfl rfl).endService,
    (CatalogueKept.of_eq (only.cat rfl)).endService, ?_⟩
  rw [(endService_only told).port]
  by_cases matched : readBackMatches s.mem (operationLeaves s v left) 512 128 (nodeBytes f) = true
  · have told_eq : told = answer .ok (bytes16 f) written := if_pos matched
    rw [if_pos matched]
    exact ⟨Answered.endService (told_eq ▸ answered_answer ..), by rw [told_eq]; rfl⟩
  · have told_eq : told = answer .worn [] (raise .arrayFault (faultDetail 512 2) written) := if_neg matched
    rw [if_neg matched]
    exact ⟨Answered.endService (told_eq ▸ answered_answer ..), by rw [told_eq]; rfl⟩

/-! ## Block states -/

theorem stagingRec_blockEvent (e : BlockEvent) (b : Block) (s : State) : stagingRec (blockEvent e b s) =
    (stagingRec s).setState b (blockNext (s.cat.stagingState = .loading) e (stagingRec s).blocks[b]) := stagingRec_setSlot ..

theorem stagingBlock_blockEvent_same (e : BlockEvent) (b : Block) (s : State) :
    stagingBlock (blockEvent e b s) b = blockNext (s.cat.stagingState = .loading) e (stagingBlock s b) := by
  unfold stagingBlock
  rw [stagingRec_blockEvent]
  simp [SlotRecord.setState]

theorem stagingBlock_blockEvent_of_ne {c : Block} (h : c ≠ b) (e : BlockEvent) (s : State) :
    stagingBlock (blockEvent e b s) c = stagingBlock s c := by
  unfold stagingBlock
  rw [stagingRec_blockEvent]
  have other : b.val ≠ c.val := fun same => h (Fin.ext same.symm)
  simp [SlotRecord.setState, other]

theorem Only.stagingBlock {ps : List Part} (h : Only ps s t) (slots : ps.elem .slots = false) (active : ps.elem .activeSlot = false)
    (b : Block) : stagingBlock t b = stagingBlock s b := by
  unfold Machine.stagingBlock
  rw [h.stagingRec slots active]

/-! ## Ends of LOAD DATA -/

/-- The result DEAD of a LOAD DATA (R29, R183). -/
theorem deadReturn_load (job : v.job = .eraseUnit .host x b) (s : State) : deadReturn v s =
    answer .worn (loadPayload b 0) (blockEvent .eraseDead b (raise .slotDead (deadDetail x b) s)) := by
  simp only [deadReturn, eraseReturn, job, loadErased]

theorem retire_of_none (gone : nextSpare s.flash.spares = none) (v : Service) : retire v s = endService (deadReturn v s) := by
  unfold retire
  rw [gone]

/-- Settles O17: the DEAD result of the third failed attempt, at the end of its event. -/
theorem lastSpareGoneEndsDead : Obligations.LastSpareGoneEndsDead := by
  unfold Obligations.LastSpareGoneEndsDead
  intro s v n left x b service op third job gone dirty queues
  let written : State := leaveContent v left s
  let faulted : State := raise .slotDead (deadDetail x b) written
  let told : State := answer .worn (loadPayload b 0) (blockEvent .eraseDead b faulted)
  have raised : Only [.mem, .port, .events] s faulted := (leaveContent_only v left s).next (raise_only ..) rfl rfl
  have only : Only [.mem, .port, .events, .answer, .cat, .slots] s told :=
    (raised.next (blockEvent_only .eraseDead b faulted) (ps := [.mem, .port, .events, .cat, .slots]) rfl rfl).next
      (answer_only ..) rfl rfl
  have content : noticeContent s = noticeContent told :=
    (((raised.steady rfl).trans (steady_blockEvent .eraseDead nofun b faulted)).then (answer_only ..) rfl).content.symm
  have ends : eraseEnds v n left s = endService told := by
    rw [← operationLeaves_erase op] at dirty
    rw [eraseEnds_failed dirty, attemptFailed_third third (by rw [job]; rfl), retire_of_none (s := written) gone, deadReturn_load job]
  have run : exec (.eraseAttempt left) s = .next (endService told) := by
    rw [exec_eraseAttempt service op, ends, settle_ended (only.gentle rfl) service queues content]
  have kept (c : Block) : stagingBlock (endService told) c = stagingBlock (blockEvent .eraseDead b faulted) c :=
    (endService_onlyParts told).stagingBlock rfl rfl c
  have before (c : Block) : stagingBlock faulted c = stagingBlock s c := raised.stagingBlock rfl rfl c
  refine ⟨_, run, Answered.endService (answered_answer ..), ?_, fun erasing => ?_, fun c other => ?_,
    (DistributionKept.of_only only rfl rfl rfl rfl rfl).endService⟩
  · rw [(endService_only told).port]
    exact congrArg HostPort.events (setSlot_port ..)
  · rw [kept, stagingBlock_blockEvent_same, before, erasing]
    rfl
  · rw [kept, stagingBlock_blockEvent_of_ne other, before]

/-- LOAD DATA's segment recorded: its mask, and for block 0 its copy (R180). -/
def segmentLoaded (b : Block) (g : Seg) (d : List Byte) (s : State) : State :=
  let t := setLoadMask b (loadMask s b ||| segBit g) (blockEvent .programDone b s)
  if b = 0 then captureSegment g d t else t

theorem segmentLoaded_load (b : Block) (g : Seg) (d : List Byte) (s : State) : (segmentLoaded b g d s).port.load =
    { masks := s.port.load.masks.set b (s.port.load.masks[b] ||| segBit g)
      copy := if b = 0 then s.port.load.copy.set g (some d) else s.port.load.copy } := by
  have port : (blockEvent .programDone b s).port = s.port := setSlot_port ..
  unfold segmentLoaded
  by_cases zero : b = 0
  · rw [if_pos zero, if_pos zero]
    simp only [captureSegment, setLoadMask, setLoad, port, loadMask]
  · rw [if_neg zero, if_neg zero]
    simp only [setLoadMask, setLoad, port, loadMask]

theorem segmentLoaded_only (b : Block) (g : Seg) (d : List Byte) (s : State) :
    Only [.cat, .slots, .port, .load] s (segmentLoaded b g d s) := by
  have masked (m : Mask) : Only [.cat, .slots, .port, .load] s (setLoadMask b m (blockEvent .programDone b s)) :=
    (blockEvent_only .programDone b s).next (setLoad_only ..) rfl rfl
  unfold segmentLoaded
  exact .ite (fun _ => (masked _).andThen (setLoad_only ..) rfl) fun _ => masked _

theorem segmentLoaded_content (b : Block) (g : Seg) (d : List Byte) (s : State) :
    noticeContent (segmentLoaded b g d s) = noticeContent s := by
  have masked (m : Mask) : Steady s (setLoadMask b m (blockEvent .programDone b s)) :=
    (steady_blockEvent .programDone nofun b s).then (setLoad_only ..) rfl
  unfold segmentLoaded
  exact (Steady.ite (fun _ => (masked _).then (setLoad_only ..) rfl) fun _ => masked _).content

theorem programReturn_load {g : Seg} {d : List Byte} (job : v.job = .programSegment .host x b g d) (s : State) :
    programReturn v .done s = answer .ok (loadPayload b (s.port.load.masks[b] ||| segBit g)) (segmentLoaded b g d s) := by
  have mask : loadMask (segmentLoaded b g d s) b = s.port.load.masks[b] ||| segBit g := by
    unfold loadMask
    rw [segmentLoaded_load]
    simp
  rw [← mask]
  simp only [programReturn, job]
  rfl

/-- Settles O20: the result DONE of LOAD DATA's program, at the end of its event. -/
theorem loadDataSegmentDone : Obligations.LoadDataSegmentDone := by
  unfold Obligations.LoadDataSegmentDone
  intro s v x b g d left service op job matched queues
  let written : State := leaveContent v left s
  let told : State := answer .ok (loadPayload b (s.port.load.masks[b] ||| segBit g)) (segmentLoaded b g d written)
  have loaded : Only [.mem, .cat, .slots, .port, .load] s (segmentLoaded b g d written) :=
    (leaveContent_only v left s).next (segmentLoaded_only ..) rfl rfl
  have only : Only [.mem, .cat, .slots, .port, .load, .answer] s told := loaded.next (answer_only ..) rfl rfl
  have content : noticeContent s = noticeContent told := (segmentLoaded_content b g d written).symm
  have run : exec (.programSegment left) s = .next (endService told) := by
    rw [exec_programSegment service op job, segmentEnds_eq job, if_pos matched, programReturn_load job]
    exact congrArg _ (settle_ended (only.gentle rfl) service queues content)
  have port : (endService told).port.load = (segmentLoaded b g d written).port.load := by
    rw [(endService_only told).port]
    rfl
  rw [segmentLoaded_load] at port
  refine ⟨_, run, Answered.endService (answered_answer ..), congrArg LoadRecord.masks port, congrArg LoadRecord.copy port, ?_,
    (DistributionKept.of_only only rfl rfl rfl rfl rfl).endService⟩
  rw [(endService_only told).port]
  exact only.events rfl

/-! ## Reads for the host -/

theorem exec_readRange {role : Role} {offset length : Nat} {r : Resolved} (service : s.flash.service = some v)
    (job : v.job = .readRange role b offset length) (resolved : v.resolved = some r) :
    exec .readRange s = .next (settle s (endService (readAnswer r (some (rangeBytes s r b offset length)) s))) := by
  change execReadRange s = _
  unfold execReadRange conclude
  simp only [service, job, resolved]

theorem exec_checkBlock {role : Role} {r : Resolved} (service : s.flash.service = some v) (job : v.job = .checkBlock role b)
    (resolved : v.resolved = some r) :
    exec .checkBlock s = .next (settle s (endService (checksumLine (checkLine s r b) s))) := by
  change execCheckBlock s = _
  unfold execCheckBlock conclude
  simp only [service, job, resolved]

/-- The last line of a CHECKSUM answers it (R176). -/
theorem checksumLine_last {role : Role} {first count : Nat} {done : List CheckLine}
    (command : s.port.command = some (.checksum role first count done)) (last : done.length + 1 = count) (line : CheckLine) :
    checksumLine line s =
      answer .ok ([BitVec.ofNat 8 first, BitVec.ofNat 8 count] ++ (done ++ [line]).flatMap checkLineBytes) s := by
  unfold checksumLine
  simp only [command]
  rw [if_neg (by rw [List.length_append, List.length_singleton]; omega)]

/-- What a host's read leaves: its answer, and a sequencer that has gone on. -/
theorem host_read_ended {r : ResultCode} {payload : List Byte} (service : s.flash.service = some v) (queues : QueuesSpareActive s)
    (told : t = answer r payload s) : settle s (endService t) = endService t ∧ (endService t).port.events = s.port.events ∧
      DistributionKept s (endService t) ∧ CatalogueKept s (endService t) ∧ Answered (endService t) r payload := by
  subst told
  have only := answer_only r payload s
  refine ⟨settle_ended (only.gentle rfl) service queues (only.steady rfl).content.symm, ?_,
    (DistributionKept.of_only only rfl rfl rfl rfl rfl).endService, (CatalogueKept.of_eq (only.cat rfl)).endService,
    Answered.endService (answered_answer ..)⟩
  rw [(endService_only _).port]
  rfl

theorem readAnswer_eq (r : Resolved) (bytes : List Byte) (s : State) : readAnswer r (some bytes) s =
    if r.readable then answer .ok (bytes16 r.version ++ bytes) s else answer .notReady (bytes16 r.version ++ [1]) s := by
  unfold readAnswer
  cases r.readable <;> rfl

/-- Settles O28: READ's answer, and the last line of a CHECKSUM. -/
theorem readsAnswerHost : Obligations.ReadsAnswerHost := by
  unfold Obligations.ReadsAnswerHost
  refine ⟨fun s v role b offset length r service job resolved queues => ?_,
    fun s v role b r first count done service job resolved queues command last => ?_⟩
  · have told := readAnswer_eq r (rangeBytes s r b offset length) s
    have run := exec_readRange service job resolved
    by_cases readable : r.readable = true
    · rw [if_pos readable] at told
      obtain ⟨ends, events, distribution, catalogue, answered⟩ := host_read_ended service queues told
      refine ⟨_, ends ▸ run, events, distribution, catalogue, ?_⟩
      rw [if_pos readable]
      exact answered
    · rw [if_neg readable] at told
      obtain ⟨ends, events, distribution, catalogue, answered⟩ := host_read_ended service queues told
      refine ⟨_, ends ▸ run, events, distribution, catalogue, ?_⟩
      rw [if_neg readable]
      exact answered
  · obtain ⟨ends, events, distribution, catalogue, answered⟩ :=
      host_read_ended service queues (checksumLine_last command last (checkLine s r b))
    refine ⟨_, checkLine s r b, ends ▸ exec_checkBlock service job resolved, events, distribution, catalogue, answered, ?_⟩
    unfold checkLine
    by_cases readable : r.readable = true
    · rw [if_pos readable, if_pos readable]
      exact ⟨rfl, rfl, rfl⟩
    · rw [if_neg readable, if_neg readable]
      exact ⟨rfl, rfl, rfl⟩

/-! ## Overtimes -/

theorem exec_overtime {u : State} {left : LastLeft} (service : s.flash.service = some v)
    (legal : interruptedLegal s v left.content = true)
    (ends : operationOvertime v left.content (strapPins left.straps s) = some u) :
    exec (.overtime left) s = .next (settle s u) := by
  change execOvertime left s = _
  unfold execOvertime conclude
  simp only [service, legal, if_true, ends]

/-- Only a program's interruption is held to what R40 lets it leave. -/
theorem interruptedLegal_of_none (op : ∀ q, v.op ≠ .entry q) (none : operationProgram s v = none) (left : Left) :
    interruptedLegal s v left = true := by
  have entry : entryLeftLegal s v left = true := by
    unfold entryLeftLegal
    split
    · rename_i q entry
      exact absurd entry (op q)
    · rfl
  unfold interruptedLegal programCutLegal
  rw [entry, none]
  rfl

/-- The part at an overtime: the straps' levels, and what the stopped operation left. -/
def stopped (v : Service) (left : LastLeft) (s : State) : State :=
  { strapPins left.straps s with mem := operationLeaves s v left.content }

theorem leaveContent_strapPins (v : Service) (left : LastLeft) (s : State) :
    leaveContent v left.content (strapPins left.straps s) = stopped v left s := rfl

theorem stopped_only (v : Service) (left : LastLeft) (s : State) : Only [.pins, .mem] s (stopped v left s) :=
  (strapPins_only left.straps s).next (leaveContent_only v left.content _) rfl rfl

/-- What its overtime's fault makes of the part. -/
theorem overtimeFault_stopped {u : Nat} (unit : operationUnit s v = u) (left : LastLeft) : overtimeFault v (stopped v left s) =
    raise .arrayFault (faultDetail u (jobCode v.job)) (stopped v left s) := by
  have same : operationUnit (stopped v left s) v = operationUnit s v := rfl
  unfold overtimeFault
  rw [same, unit]

/-- A stopped job that goes on with another operation, once its fault is raised. -/
theorem settle_stopped {w : Service} (goes : w.op ≠ .protectedReturn) (detail : BitVec 32) (left : LastLeft)
    (positions : Vector SparePos 8) :
    settle s (setService w (raise .arrayFault detail
        { stopped v left s with flash := { s.flash with spares := positions } })) =
      { strapPins left.straps s with
        mem := operationLeaves s v left.content
        flash := { s.flash with spares := positions, service := some w }
        port := { s.port with events := raiseIn .arrayFault detail s.port.events } } := by
  have content : noticeContent s = noticeContent (raise .arrayFault detail
      { stopped v left s with flash := { s.flash with spares := positions } }) := rfl
  rw [settle_setService goes content]
  rfl

/-- An erase attempt stopped at its limit is tried again (R26). -/
theorem overtime_erase (service : s.flash.service = some v) (few : n < 2) (op : v.op = .erase n) (left : LastLeft) :
    exec (.overtime left) s = .next (settle s (setService { v with op := .erase (n + 1) }
      (raise .arrayFault (faultDetail (eraseTarget s v.job) (jobCode v.job)) (stopped v left s)))) := by
  have legal : interruptedLegal s v left.content = true :=
    interruptedLegal_of_none (by rw [op]; exact nofun) (by unfold operationProgram; rw [op]) left.content
  have unit : operationUnit s v = eraseTarget s v.job := by
    unfold operationUnit
    rw [op]
  refine exec_overtime service legal ?_
  simp only [operationOvertime, op, attemptFailed_again few, leaveContent_strapPins, overtimeFault_stopped unit]

/-- A spare map entry stopped at its limit goes on to the next position (R28). -/
theorem overtime_entry {q : Fin 8} (service : s.flash.service = some v) (op : v.op = .entry p) {left : LastLeft}
    (legal : interruptedLegal s v left.content = true) (spare : nextSpare (s.flash.spares.set p .void) = some q) :
    exec (.overtime left) s = .next (settle s (setService { v with op := .entry q }
      (raise .arrayFault (faultDetail 513 (jobCode v.job))
        { stopped v left s with flash := { s.flash with spares := s.flash.spares.set p .void } }))) := by
  refine exec_overtime service legal ?_
  simp only [operationOvertime, op, leaveContent_strapPins]
  exact congrArg some (entryFailed_again (s := stopped v left s) spare v)

/-- A segment program stopped at its limit goes on to the next position (R30). -/
theorem overtime_segment {req : Requester} {g : Seg} {d : List Byte} (service : s.flash.service = some v) (op : v.op = .main)
    (job : v.job = .programSegment req x b g d) {left : LastLeft} (legal : interruptedLegal s v left.content = true)
    (spare : nextSpare s.flash.spares = some p) :
    exec (.overtime left) s = .next (settle s (setService { v with op := .entry p }
      (raise .arrayFault (faultDetail (currentUnit s.flash.spares x b) 2) (stopped v left s)))) := by
  have unit : operationUnit s v = currentUnit s.flash.spares x b := by
    unfold operationUnit programRun
    rw [op, job]
  have fault := overtimeFault_stopped unit left
  have retired := retire_of_spare (s := overtimeFault v (stopped v left s)) spare v
  rw [fault, show jobCode v.job = 2 by rw [job]; rfl] at retired
  refine exec_overtime service legal ?_
  rw [← retired]
  simp only [operationOvertime, op, mainOvertime, job, leaveContent_strapPins, fault]
  rfl

/-- A READ RANGE stopped at its limit answers NOT-READY with cause 02h (R34). -/
theorem overtime_read {role : Role} {offset length : Nat} {r : Resolved} (service : s.flash.service = some v) (op : v.op = .main)
    (job : v.job = .readRange role b offset length) (resolved : v.resolved = some r) (readable : r.readable = true)
    (left : LastLeft) :
    exec (.overtime left) s = .next (settle s (endService (answer .notReady (bytes16 r.version ++ [2])
      (raise .arrayFault (faultDetail (currentUnit s.flash.spares r.slot b) 5) (stopped v left s))))) := by
  have none : operationProgram s v = .none := by
    unfold operationProgram programRun
    rw [op, job]
  have unit : operationUnit s v = currentUnit s.flash.spares r.slot b := by
    unfold operationUnit
    rw [op, job, resolved]
    rfl
  refine exec_overtime service (interruptedLegal_of_none (by rw [op]; exact nofun) none left.content) ?_
  simp only [operationOvertime, op, mainOvertime, job, resolved, readable, if_true, leaveContent_strapPins,
    overtimeFault_stopped unit, readAnswer]
  rfl

/-- Settles O29: the overtime of each operation fails as its own end does. -/
theorem overtimeFails : Obligations.OvertimeFails := by
  unfold Obligations.OvertimeFails
  intro s v left service
  refine ⟨fun n few op => ?_, fun p q op legal spare => ?_, fun req x b g d p op job spare legal => ?_,
    fun role b offset length r op job resolved readable queues => ?_⟩
  · rw [overtime_erase service few op]
    exact congrArg _ (settle_stopped (w := { v with op := .erase (n + 1) }) nofun _ left s.flash.spares)
  · rw [overtime_entry service op legal spare]
    exact congrArg _ (settle_stopped (w := { v with op := .entry q }) nofun _ left _)
  · rw [overtime_segment service op job legal spare]
    exact congrArg _ (settle_stopped (w := { v with op := .entry p }) nofun _ left s.flash.spares)
  · let faulted : State := raise .arrayFault (faultDetail (currentUnit s.flash.spares r.slot b) 5) (stopped v left s)
    let told : State := answer .notReady (bytes16 r.version ++ [2]) faulted
    have same : operationLeaves s v left.content = s.mem := by
      unfold operationLeaves operationProgram programRun
      rw [op, job]
    have only : Only [.pins, .mem, .port, .events, .answer] s told :=
      ((stopped_only v left s).next (raise_only ..) (ps := [.pins, .mem, .port, .events]) rfl rfl).next
        (answer_only ..) rfl rfl
    refine ⟨endService told, ?_, (endService_only told).mem.trans same, Answered.endService (answered_answer ..),
      (DistributionKept.of_only only rfl rfl rfl rfl rfl).endService, (CatalogueKept.of_eq (only.cat rfl)).endService, ?_⟩
    · rw [overtime_read service op job resolved readable left]
      exact congrArg _ (settle_ended (only.gentle rfl) service queues (only.steady rfl).content.symm)
    · rw [(endService_only told).port]
      rfl

end Sys2Proof.Machine
end

section
/-! SUPPORT. FETCH RESULTS: what the ends of a fetch context's program and verify leave of its context and its block, and the
segment read for an outgoing buffer. -/

namespace Sys2Proof.Machine

variable {s t : State} {v : Service} {i : Fin 4} {x : Slot} {b : Block} {g : Seg}

/-! ## A context's program -/

theorem ctxOf_jobReturned (i : Fin 4) (s : State) : ctxOf (jobReturned i s) i = { ctxOf s i with job := .none } := setCtx_get ..

theorem ctxOf_freeHead (i : Fin 4) (s : State) : ctxOf (freeHead i s) i = { ctxOf s i with buffers := (ctxOf s i).buffers.drop 1 } :=
  setCtx_get ..

theorem poolFree_freeHead (i : Fin 4) (s : State) :
    (freeHead i s).fetch.poolFree = s.fetch.poolFree + min 1 (ctxOf s i).buffers.length := rfl

theorem evaluate_of_open (h : (ctxOf s i).state ≠ .settling) : evaluate i s = s := if_neg (by simp [h])

/-- The context's segment recorded and its head buffer freed (R121). -/
def segmentWritten (i : Fin 4) (b : Block) (g : Seg) (s : State) : State :=
  freeHead i (updateCtx i (fun c => { c with programmed := c.programmed ||| segBit g }) (blockEvent .programDone b (jobReturned i s)))

theorem fetchProgrammed_done (i : Fin 4) (b : Block) (g : Seg) (s : State) :
    fetchProgrammed .done i b g s = fetchFollow (evaluate i (programNext i (segmentWritten i b g s))) := rfl

theorem programReturn_fetch {d : List Byte} (job : v.job = .programSegment (.fetch i) x b g d) (live : v.orphan = false)
    (r : ProgramResult) (s : State) : programReturn v r s = fetchProgrammed r i b g s := by
  unfold programReturn
  simp only [job]
  exact if_neg (by simp [live])

theorem ctxOf_segmentWritten (i : Fin 4) (b : Block) (g : Seg) (s : State) : ctxOf (segmentWritten i b g s) i =
    { ctxOf s i with
      job := .none, programmed := (ctxOf s i).programmed ||| segBit g, buffers := (ctxOf s i).buffers.drop 1 } := by
  unfold segmentWritten
  rw [ctxOf_freeHead]
  unfold updateCtx
  rw [setCtx_get, (blockEvent_only .programDone b _).ctx rfl i, ctxOf_jobReturned]

theorem segmentWritten_only (i : Fin 4) (b : Block) (g : Seg) (s : State) :
    Only [.fetch, .ctxs, .pool, .cat, .slots] s (segmentWritten i b g s) :=
  (((jobReturned_only i s).next (blockEvent_only ..) (ps := [.fetch, .ctxs, .cat, .slots]) rfl rfl).andThen (updateCtx_only ..) rfl).next
    (freeHead_only ..) rfl rfl

theorem poolFree_segmentWritten (h : (ctxOf s i).buffers ≠ []) (b : Block) (g : Seg) :
    (segmentWritten i b g s).fetch.poolFree = s.fetch.poolFree + 1 := by
  let returned : State := blockEvent .programDone b (jobReturned i s)
  have before : Only [.fetch, .ctxs, .cat, .slots] s
      (updateCtx i (fun c => { c with programmed := c.programmed ||| segBit g }) returned) :=
    ((jobReturned_only i s).next (blockEvent_only ..) (ps := [.fetch, .ctxs, .cat, .slots]) rfl rfl).andThen (updateCtx_only ..) rfl
  have buffers : (ctxOf (updateCtx i (fun c => { c with programmed := c.programmed ||| segBit g }) returned) i).buffers =
      (ctxOf s i).buffers := by
    unfold updateCtx
    rw [setCtx_get, show ctxOf returned i = _ from (blockEvent_only .programDone b _).ctx rfl i, ctxOf_jobReturned]
  have some_ : 1 ≤ (ctxOf s i).buffers.length := List.length_pos_iff.mpr h
  unfold segmentWritten
  rw [poolFree_freeHead, before.poolFree rfl, buffers, Nat.min_eq_left some_]

theorem steady_segmentWritten (i : Fin 4) (b : Block) (g : Seg) (s : State) : Steady s (segmentWritten i b g s) :=
  ((((jobReturned_only i s).steady rfl).trans (steady_blockEvent .programDone nofun b _)).then (updateCtx_only ..) rfl).then
    (freeHead_only ..) rfl

/-- Settles O21: the result DONE of a context's program. The context is RECEIVING, so that what follows submits its next program
and leaves it as it is. -/
theorem fetchSegmentDone : Obligations.FetchSegmentDone := by
  unfold Obligations.FetchSegmentDone
  intro s v i x b g d left service op job live matched queues receiving buffers
  let written : State := leaveContent v left s
  let recorded : State := segmentWritten i b g written
  let next : State := programNext i recorded
  let told : State := fetchFollow next
  have context : ctxOf recorded i = { ctxOf s i with
      job := .none, programmed := (ctxOf s i).programmed ||| segBit g, buffers := (ctxOf s i).buffers.drop 1 } :=
    ctxOf_segmentWritten i b g written
  have going : ctxOf next i = { ctxOf recorded i with job := (ctxOf next i).job } := ctxOf_programNext i recorded
  have state : (ctxOf next i).state = .receiving := by rw [going, context]; exact receiving
  have follow : CtxGoesOn i next told := fetchFollow_goesOn (by rw [state]; exact nofun)
  unfold CtxGoesOn at follow
  have returned : programReturn v .done written = told := by
    have evaluated : evaluate i next = next := evaluate_of_open (by rw [state]; exact nofun)
    rw [programReturn_fetch job live, fetchProgrammed_done]
    exact congrArg fetchFollow evaluated
  have after : Only openParts recorded told := (programNext_only i recorded).next (fetchFollow_only next) rfl rfl
  have recorded_only : Only [.mem, .fetch, .ctxs, .pool, .cat, .slots] s recorded :=
    (leaveContent_only v left s).next (segmentWritten_only i b g written) rfl rfl
  have only : Only (.mem :: endCtxParts) s told := recorded_only.next after rfl rfl
  have gentle : Gentle s told := by
    rw [← returned]
    exact ((leaveContent_only v left s).gentle rfl).trans (gentle_programReturn ..)
  have content : noticeContent s = noticeContent told :=
    ((((leaveContent_only v left s).steady rfl).trans (steady_segmentWritten i b g written)).trans
      ((steady_programNext i recorded).trans (steady_fetchFollow next))).content.symm
  have ended := endService_only told
  have context' : ctxOf (endService told) i = ctxOf told i := (endService_onlyParts told).ctx rfl i
  refine ⟨endService told, ?_, ?_, ?_, ?_, ?_, ended.serve.trans (only.serve rfl), ended.notice.trans (only.notice rfl),
    ended.port.trans (only.port rfl)⟩
  · rw [exec_programSegment service op job, segmentEnds_eq job, if_pos matched, show leaveContent v left s = written from rfl,
      returned, settle_ended gentle service queues content]
  · rw [context', follow, going, context]
    exact receiving
  · rw [context', follow, going, context]
  · rw [context', follow, going, context]
  · rw [ended.fetch, after.poolFree rfl]
    exact poolFree_segmentWritten (s := written) buffers b g

/-! ## A context's verify -/

theorem exec_verifyBlock {req : Requester} {want : Expected} {feed : Option ImageFeed} (service : s.flash.service = some v)
    (job : v.job = .verifyBlock req x b want feed) :
    exec .verifyBlock s = .next (settle s (verifyEnds v x b want feed s)) := by
  change execVerifyBlock s = _
  unfold execVerifyBlock conclude
  simp only [service, job]

/-- A block that is VERIFIED stays so whatever event but its own erase's end names it (R46). -/
theorem blockEvent_keeps_verified {e : BlockEvent} (he : ∀ l, blockNext l e .verified = .verified) (c : Block)
    (h : stagingBlock s b = .verified) : stagingBlock (blockEvent e c s) b = .verified := by
  by_cases same : b = c
  · subst same
    rw [stagingBlock_blockEvent_same, h, he]
  · rw [stagingBlock_blockEvent_of_ne same, h]

theorem openOne_keeps_verified (h : stagingBlock s b = .verified) : stagingBlock (openOne s) b = .verified := by
  have same {t : State} {ps : List Part} (only : Only ps s t) (slots : ps.elem .slots = false) (active : ps.elem .activeSlot = false) :
      stagingBlock t b = .verified := (only.stagingBlock slots active b).trans h
  unfold openOne
  split
  · split
    · rename_i j c _ _
      unfold openOn
      extract_lets opened
      split
      · exact ((submit_onlyParts ..).stagingBlock rfl rfl b).trans
          (blockEvent_keeps_verified (fun _ => rfl) c (same (setCtx_only ..) rfl rfl))
      · exact ((enterAsking_onlyAsks (by rw [setCtx_get]; exact Nat.succ_pos 4)).stagingBlock rfl rfl b).trans
          (same (setCtx_only ..) rfl rfl)
    · exact h
  · exact h

theorem fetchFollow_keeps_verified (h : stagingBlock s b = .verified) : stagingBlock (fetchFollow s) b = .verified := by
  unfold fetchFollow openContexts
  refine openOne_keeps_verified (openOne_keeps_verified (openOne_keeps_verified (openOne_keeps_verified ?_)))
  rw [(submitHeld_only s).stagingBlock rfl rfl, h]

/-- A VERIFYING block that passes becomes VERIFIED, whatever else its manifest settles (R46, R47). -/
theorem blockVerified_verified (h : stagingBlock s b = .verifying) (m : Option Manifest) :
    stagingBlock (blockVerified b m s) b = .verified := by
  have passed : stagingBlock (blockEvent .verifyPass b s) b = .verified := by rw [stagingBlock_blockEvent_same, h]; rfl
  unfold blockVerified
  rw [if_neg (not_not.mpr h)]
  extract_lets t u w
  have used : stagingBlock u b = .verified := by
    unfold u
    split
    · rename_i _ _ m zero
      unfold updateStaging stagingBlock at *
      rw [stagingRec_setSlot]
      simpa [SlotRecord.unuseAbove, mapVecIdx, zero] using passed
    · exact passed
  have marked : stagingBlock w b = .verified := by
    unfold w
    split
    · exact used
    · rw [(addWork_onlyParts ..).stagingBlock rfl rfl, used]
  split
  · rw [(raise_only ..).stagingBlock rfl rfl, (setStagingState_only ..).stagingBlock rfl rfl, marked]
  · exact marked

/-- Settles O26: a passed verify's block stays VERIFIED while its context is released and others are opened; a failed one is
erased again. -/
theorem verifyDecidesBlock : Obligations.VerifyDecidesBlock := by
  unfold Obligations.VerifyDecidesBlock
  intro s v i b want service job live verifying queues
  let content : List Byte := unitBytes s.mem (currentUnit s.flash.spares (stagingSlot s) b)
  let told : State := fetchVerified (judgeContent want content).1 (judgeContent want content).2 i b s
  let returned : State := jobReturned i s
  have run : exec .verifyBlock s = .next (settle s (endService told)) := by
    rw [exec_verifyBlock service job]
    unfold verifyEnds verifyReturn
    simp only [job, live]
    rfl
  have gentle : Gentle s told := gentle_fetchVerified ..
  have free : NotProtected (endService told) := (endService_spares (gentle.queues service queues)).1
  have kept : stagingBlock (settle s (endService told)) b = stagingBlock told b :=
    ((settle_onlyNotice free s).stagingBlock rfl rfl b).trans ((endService_onlyParts told).stagingBlock rfl rfl b)
  have context : ctxOf (settle s (endService told)) i = ctxOf told i :=
    ((settle_onlyNotice free s).ctx rfl i).trans ((endService_onlyParts told).ctx rfl i)
  have begun : stagingBlock returned b = .verifying := ((jobReturned_only i s).stagingBlock rfl rfl b).trans verifying
  refine ⟨_, run, ?_⟩
  rw [kept, context]
  by_cases pass : (judgeContent want content).1 = true
  · rw [if_pos pass]
    have passed : told = endCtx i (blockVerified b (judgeContent want content).2 returned) := if_pos pass
    rw [passed]
    refine fetchFollow_keeps_verified ?_
    rw [(releaseCtx_only ..).stagingBlock rfl rfl, blockVerified_verified begun]
  · rw [if_neg pass]
    have failed : told = submitErase i b (updateCtx i Ctx.restarted (blockEvent .verifyFail b returned)) := if_neg pass
    have restarted : ctxOf told i = (ctxOf (blockEvent .verifyFail b returned) i).restarted := by
      rw [failed, submitErase_ctx]
      exact setCtx_get ..
    have unknown : stagingBlock (updateCtx i Ctx.restarted (blockEvent .verifyFail b returned)) b = .unknown := by
      rw [(updateCtx_only ..).stagingBlock rfl rfl, stagingBlock_blockEvent_same, begun]
      rfl
    refine ⟨?_, by rw [restarted]; rfl, by rw [restarted]; rfl, by rw [restarted]; rfl⟩
    rw [failed]
    unfold submitErase
    rw [(submit_onlyParts ..).stagingBlock rfl rfl, stagingBlock_blockEvent_same, unknown]
    rfl

/-! ## A segment read for an outgoing buffer -/

theorem bufOf_setBuf (i : OutBufId) (o : OutBuf) (s : State) : bufOf (setBuf i o s) i = o := by
  cases i <;> rfl

theorem txSubmit_of_accepted {f : Frame} (h : txAnswer s.line f = .accepted) (o : Owner) (h4 : frameClass f ≠ 4) :
    (txSubmit f o s).line.queue = s.line.queue ++ [{ frame := f, owner := o, attempts := 0, onLine := false, live := true }] := by
  unfold txSubmit
  rw [if_pos h]
  unfold txQueued
  rw [if_neg h4]

theorem readResult_accepted {k : Key} {d : List Byte} (reading : bufOf s i' = .reading k b g true)
    (accepted : txAnswer s.line (.segment k b g d) = .accepted) : readResult i' (some d) s =
      setBuf i' (.frame k b g d true) (txSubmit (.segment k b g d) (.serveBuffer i') s) := by
  unfold readResult
  simp only [reading, accepted, if_true]

/-- Settles O27: the buffer takes the segment and the queue its frame; the sequencer goes on. -/
theorem readSegmentQueuesFrame : Obligations.ReadSegmentQueuesFrame := by
  unfold Obligations.ReadSegmentQueuesFrame
  intro s v x b g i k service job reading queues accepted
  let d : List Byte := segmentBytes s.mem (currentUnit s.flash.spares x b) g.val
  let sent : State := txSubmit (.segment k b g d) (.serveBuffer i) s
  let told : State := setBuf i (.frame k b g d true) sent
  have only : Only [.line, .queue, .serve, .bufs] s told := (txSubmit_only ..).next (setBuf_only ..) rfl rfl
  have run : exec .readSegment s = .next (endService told) := by
    rw [exec_readSegment service job, readResult_accepted reading accepted]
    exact congrArg _ (settle_ended (only.gentle rfl) service queues (only.steady rfl).content.symm)
  have ended := endService_only told
  have queue : told.line.queue = sent.line.queue := (setBuf_only i _ sent).queue rfl
  refine ⟨_, run, ?_, ?_, (CatalogueKept.of_eq (only.cat rfl)).endService, ended.port.trans (only.port rfl),
    ended.fetch.trans (only.fetch rfl), ended.notice.trans (only.notice rfl)⟩
  · rw [(endService_onlyParts told).buf rfl]
    exact bufOf_setBuf ..
  · rw [ended.line, queue]
    exact txSubmit_of_accepted accepted _ nofun

end Sys2Proof.Machine
end

section
/-! SUPPORT. APPENDS: what an APPEND RECORD leaves in the array, the procedures that its DONE result ends, and the failure that an
exhausted sequence is. -/

namespace Sys2Proof.Machine

variable {s t : State} {v : Service} {u : CommitUnit} {q : Nat} {r : CommitRecord}

/-! ## The array -/

theorem byteAt_segmentPattern_inside {o i : Nat} {bytes : List Byte} (within : i < bytes.length) :
    byteAt (segmentPattern o bytes) (o + i) = byteAt bytes i := by
  have shift := byteAt_append_right (List.replicate o erasedByte) (bytes ++ List.replicate (128 - o - bytes.length) erasedByte) i
  rw [List.length_replicate] at shift
  unfold segmentPattern
  rw [List.append_assoc, shift, byteAt_append_left within]

/-- A program of a run within a segment ANDs the run's bytes and leaves every other byte (R3, R31). -/
theorem read_segmentPattern {m : List Host.Cell} (wf : Memory.wf m) {o : Nat} {bytes : List Byte} (room : o + bytes.length ≤ 128)
    (unit base a : Nat) : Memory.read (programLeaving m unit base (segmentPattern o bytes) .expected) a =
      if unitAddr unit (base + o) ≤ a ∧ a < unitAddr unit (base + o) + bytes.length then
        Memory.read m a &&& byteAt bytes (a - unitAddr unit (base + o))
      else Memory.read m a := by
  have length : (segmentPattern o bytes).length = 128 := length_segmentPattern room
  have start : unitAddr unit (base + o) = unitAddr unit base + o := by unfold unitAddr; omega
  rw [read_programLeaving wf, length, start]
  by_cases inside : unitAddr unit base ≤ a ∧ a < unitAddr unit base + 128
  · obtain ⟨i, rfl⟩ := Nat.exists_eq_add_of_le inside.1
    have within : i < 128 := by omega
    rw [if_pos inside, Nat.add_sub_cancel_left, programLeft,
      getD_programmed _ _ (by rw [length_readBytes, length]) _ (by omega), getD_readBytes _ _ _ _ within]
    by_cases run : o ≤ i ∧ i < o + bytes.length
    · obtain ⟨k, rfl⟩ := Nat.exists_eq_add_of_le run.1
      rw [if_pos (by omega), byteAt_segmentPattern_inside (by omega), show unitAddr unit base + (o + k) - (unitAddr unit base + o) = k by omega]
    · rw [if_neg (by omega), byteAt_segmentPattern_outside within (by omega), and_erasedByte]
  · rw [if_neg inside, if_neg (by omega)]

theorem operationLeaves_append (op : v.op = .main) (job : v.job = .appendRecord u q (.record r)) (left : Left) :
    operationLeaves s v left =
      programLeaving s.mem (controlNumber u.unit) (128 * (q / 2)) (segmentPattern (64 * (q % 2)) (recordBytes r)) left := by
  simp only [operationLeaves, operationProgram, programRun, op, job]
  rfl

/-- An append that leaves the expected content changes its position alone (R3, R36). -/
theorem read_append (wf : Memory.wf s.mem) (op : v.op = .main) (job : v.job = .appendRecord u q (.record r)) (a : Nat) :
    Memory.read (operationLeaves s v .expected) a =
      if unitAddr (controlNumber u.unit) (64 * q) ≤ a ∧ a < unitAddr (controlNumber u.unit) (64 * q) + 64 then
        Memory.read s.mem a &&& byteAt (recordBytes r) (a - unitAddr (controlNumber u.unit) (64 * q))
      else Memory.read s.mem a := by
  have place : 128 * (q / 2) + 64 * (q % 2) = 64 * q := by omega
  rw [operationLeaves_append op job, read_segmentPattern wf (by rw [length_recordBytes]; omega), length_recordBytes, place]

/-- A record appended into an erased position stands there (R3, R36). -/
theorem recordAt_append (wf : Memory.wf s.mem) (op : v.op = .main) (job : v.job = .appendRecord u q (.record r))
    (erased : recordAt s.mem u q = List.replicate 64 erasedByte) :
    recordAt (operationLeaves s v .expected) u q = recordBytes r := by
  have length : (recordAt (operationLeaves s v .expected) u q).length = 64 := length_readBytes ..
  refine List.ext_getElem (length.trans (length_recordBytes r).symm) fun i before after => ?_
  have within : i < 64 := by omega
  have blank : Memory.read s.mem (unitAddr (controlNumber u.unit) (64 * q) + i) = erasedByte := by
    rw [← getD_readBytes s.mem _ 64 i within, show readBytes s.mem _ 64 = _ from erased]
    exact List.getD_replicate _ within
  have reads : (recordAt (operationLeaves s v .expected) u q).getD i 0 =
      Memory.read (operationLeaves s v .expected) (unitAddr (controlNumber u.unit) (64 * q) + i) := getD_readBytes _ _ _ _ within
  rw [read_append wf op job, if_pos (by omega), blank, Nat.add_sub_cancel_left, BitVec.and_comm, and_erasedByte] at reads
  rw [← List.getD_eq_getElem _ 0 before, reads]
  exact List.getD_eq_getElem _ 0 after

/-! ## The command -/

/-- The result of an append (R36, R38). -/
def appendResult (v : Service) (u : CommitUnit) (q : Nat) (r : CommitRecord) (left : LastLeft) (s : State) : State :=
  if recordAt (operationLeaves s v left.content) u q = recordBytes r then controlDone v.job (stopped v left s)
  else controlFailed u.unit v.job (stopped v left s)

theorem exec_appendRecord (service : s.flash.service = some v) (job : v.job = .appendRecord u q (.record r)) (left : LastLeft) :
    exec (.appendRecord left) s = .next (settle s (endService (appendResult v u q r left s))) := by
  have ends : appendEnds v u q (.record r) left.content (strapPins left.straps s) = endService (appendResult v u q r left s) := rfl
  rw [← ends]
  change execAppendRecord left s = _
  unfold execAppendRecord conclude
  simp only [service, job]

theorem mem_appendResult (v : Service) (u : CommitUnit) (q : Nat) (r : CommitRecord) (left : LastLeft) (s : State) :
    (settle s (endService (appendResult v u q r left s))).mem = operationLeaves s v left.content := by
  have work : Work (stopped v left s) (appendResult v u q r left s) := by
    unfold appendResult
    split
    · exact (Work.refl _).op_controlDone
    · exact (Work.refl _).op_controlFailed
  exact work.op_endService.op_settle.frame.1

/-- Outside WIPE the DONE result of an append is the procedure's (R52). -/
theorem appendResult_done (noWipe : NoWipe s) (job : v.job = .appendRecord u q (.record r)) {left : LastLeft}
    (matched : recordAt (operationLeaves s v left.content) u q = recordBytes r) :
    appendResult v u q r left s = appendDone r (stopped v left s) := by
  have outside : NoWipe (stopped v left s) := noWipe
  unfold appendResult controlDone
  rw [if_pos matched, wipeDraining_of_noWipe outside, wipeOwnJob_of_noWipe outside, job]
  rfl

/-! ## The procedures that end -/

theorem judge_noWipe (k : Key) (src : Addr) (noWipe : NoWipe s) : NoWipe (judge k src s) := by
  obtain same | conflict | ⟨p, target⟩ | ⟨_, reclaim⟩ := judge_cases k src s
  · rwa [same]
  · rwa [conflict]
  · rwa [target]
  · rw [reclaim]
    exact startReclaim_noWipe k s

theorem judgeTarget_noWipe (noWipe : NoWipe s) : NoWipe (judgeTarget s) := by
  unfold judgeTarget
  split
  · exact noWipe
  · split
    · exact noWipe
    · exact judge_noWipe _ _ ((setTarget_only ..).noWipe rfl noWipe)

/-- The recorded view stays, and no WIPE begins. -/
def ViewKept (s t : State) : Prop := t.cat.recorded = s.cat.recorded ∧ (NoWipe s → NoWipe t)

theorem ViewKept.trans {w : State} (h : ViewKept s t) (k : ViewKept t w) : ViewKept s w := ⟨k.1.trans h.1, k.2 ∘ h.2⟩

theorem Only.viewKept {ps : List Part} (h : Only ps s t) (recorded : ps.elem .recorded = false)
    (procedure : ps.elem .procedure = false) : ViewKept s t := ⟨h.recorded recorded, h.noWipe procedure⟩

theorem viewKept_procedure (s : State) : ViewKept s (setProcedure .none s) :=
  ⟨rfl, fun _ _ _ => nofun⟩

theorem viewKept_judgeTarget (s : State) : ViewKept s (judgeTarget s) :=
  ⟨(judgeTarget_only s).recorded rfl, judgeTarget_noWipe⟩

theorem viewKept_addAppend (r : CommitRecord) (s : State) : ViewKept s (addAppend r s) :=
  ⟨(addAppend_only r s).recorded rfl, fun h => addAppend_noWipe h r⟩

theorem viewKept_reclaimAppended (s : State) : ViewKept s (reclaimAppended s) := by
  unfold reclaimAppended
  extract_lets key faulted follow
  have raised : ViewKept s faulted := (raise_only ..).viewKept rfl rfl
  have followed : ViewKept s follow :=
    (raised.trans (viewKept_procedure _)).trans
      (((setStagingState_only .fetching _).next (setTarget_only none _) (ps := openParts ++ [.target, .stagingState]) rfl rfl).andThen
        (fetchFollow_only _) rfl |>.viewKept rfl rfl)
  split
  · split
    · exact (raised.trans (((updateStaging_only ..).next (setTarget_only none _) (ps := [.cat, .slots, .target]) rfl rfl).viewKept
        rfl rfl)).trans (viewKept_addAppend ..)
    · exact followed
  · exact followed

/-- The catalogue as the roles have swapped (R64). -/
def rolesSwapped (revert : Bool) (s : State) : State :=
  { s with cat := { s.cat with
    activeSlot := stagingSlot s, activeState := .present, procedure := .none
    stagingState := if revert then .declined else if s.cat.activeState = .none then .empty else .retired } }

theorem switchAppended_eq (revert : Bool) (s : State) : switchAppended revert s =
    judgeTarget (answer .ok (slotCode (stagingSlot s) :: bytes16 (versionOf (activeRec (rolesSwapped revert s)).key))
      (raise .switched (versionDetail (versionOf (activeRec (rolesSwapped revert s)).key)) (rolesSwapped revert s))) := rfl

theorem viewKept_switchAppended (revert : Bool) (s : State) : ViewKept s (switchAppended revert s) := by
  have swap : ViewKept s (rolesSwapped revert s) := ⟨rfl, fun _ _ _ => nofun⟩
  rw [switchAppended_eq]
  exact (swap.trans (((raise_only ..).next (answer_only ..) (ps := [.port, .events, .answer]) rfl rfl).viewKept rfl rfl)).trans
    (viewKept_judgeTarget _)

theorem viewKept_floorAppended (s : State) : ViewKept s (floorAppended s) := by
  unfold floorAppended
  exact ((viewKept_procedure s).trans ((answer_only ..).viewKept rfl rfl)).trans (viewKept_judgeTarget _)

theorem viewKept_loadBeginAppended (s : State) : ViewKept s (answer .ok [] (setProcedure .none s)) :=
  (viewKept_procedure s).trans ((answer_only ..).viewKept rfl rfl)

theorem viewKept_loadEndAppended (s : State) : ViewKept s (loadEndAppended s) := by
  unfold loadEndAppended
  extract_lets completed loaded version
  have complete : ViewKept s completed := (viewKept_procedure s).trans ((setStagingState_only ..).viewKept rfl rfl)
  exact (complete.trans (((raise_only ..).next (answer_only ..) (ps := [.port, .events, .answer]) rfl rfl).viewKept rfl rfl)).trans
    (viewKept_judgeTarget _)

/-- The part as the record has become the recorded view (R52). -/
def recordViewed (r : CommitRecord) (s : State) : State := { s with cat := { s.cat with recorded := r } }

theorem appendDone_switch {revert : Bool} (open_ : s.cat.procedure = .switch revert) (r : CommitRecord) :
    appendDone r s = switchAppended revert (recordViewed r s) := by
  unfold appendDone
  split
  case h_2 other swap =>
    obtain rfl := Procedure.switch.inj (open_.symm.trans swap)
    rfl
  all_goals simp_all

/-- Whatever procedure the append ends, the recorded view is the record (R52). -/
theorem viewKept_appendDone (r : CommitRecord) (s : State) : ViewKept (recordViewed r s) (appendDone r s) := by
  unfold appendDone
  split
  · exact viewKept_reclaimAppended (recordViewed r s)
  · exact viewKept_switchAppended _ (recordViewed r s)
  · exact viewKept_floorAppended (recordViewed r s)
  · exact viewKept_loadBeginAppended (recordViewed r s)
  · exact viewKept_loadEndAppended (recordViewed r s)
  · exact ⟨rfl, id⟩

/-! ## FROZEN -/

/-- Outside WIPE the failure of a procedure closes it (R54). -/
theorem procedureFailed_procedure (noWipe : NoWipe s) : (procedureFailed s).cat.procedure = .none := by
  unfold procedureFailed
  cases open_ : s.cat.procedure with
  | none => exact open_
  | loadEnd => exact (loadUndo_only (setProcedure .none s)).procedure rfl
  | wipe step failed => exact absurd open_ (noWipe step failed)
  | _ => rfl

/-- Outside WIPE no procedure stays open in FROZEN (R54). -/
theorem setFrozen_procedure (noWipe : NoWipe s) : (setFrozen s).cat.procedure = .none := by
  have eq : setFrozen s = closeGate (procedureFailed (frozenBegun s)) := rfl
  rw [eq, (closeGate_only _).procedure rfl]
  exact procedureFailed_procedure (s := frozenBegun s) noWipe

/-- The parts that the entry to JOINING touches. -/
abbrev joinParts : List Part := [.link, .timers, .port, .events] ++ openParts

theorem enterJoining_only (s : State) : Only joinParts s (enterJoining s) :=
  ((setLink_only .joining s).next (only_timers (some 300) .stopped _) (ps := joinParts) rfl rfl).andThen (fetchFollow_only _) rfl

theorem only_startUp (w : StartUp) (s : State) (straps : w.straps = s.startUp.straps) :
    Only [.startUp, .stage, .rebuild] s { s with startUp := w } := by
  refine ⟨fun p off => ?_⟩
  cases p <;> first | exact Eq.refl _ | exact straps | contradiction

/-- The parts that the rebuild touches as it goes on. -/
abbrev resumeParts : List Part := [.startUp, .stage, .rebuild] ++ joinParts

theorem tryRebuildEnd_only (s : State) : Only resumeParts s (tryRebuildEnd s) := by
  have ended := only_startUp { s.startUp with stage := .running, rebuild := .idle } s rfl
  exact .ite (fun _ => .ite (fun _ => ended.mono rfl) fun _ => ended.next (enterJoining_only _) rfl rfl) fun _ => .refl ..

theorem submitVerify_only (role : Role) (b : Block) (s : State) : Only resumeParts s (submitVerify role b s) :=
  .ite (fun _ => (only_startUp { s.startUp with rebuild := .awaiting role b } s rfl).next (submit_onlyParts ..) rfl rfl) fun _ =>
    (only_startUp { s.startUp with rebuild := .due role b } s rfl).mono rfl

theorem rebuildResume_only (s : State) : Only resumeParts s (rebuildResume s) := by
  unfold rebuildResume
  split
  · exact submitVerify_only ..
  · exact tryRebuildEnd_only s
  · exact .refl ..

/-- A record job that fails ends the open procedure, and its event keeps it ended (R54). -/
theorem recordJobFailed_procedure (noWipe : NoWipe s) (u : ControlUnit) (j : Job) (before : State) :
    (settle before (endService (controlFailed u j s))).cat.procedure = .none := by
  have failed : (controlFailed u j s).cat.procedure = .none := by
    rw [controlFailed_of_noWipe noWipe, (rebuildResume_only _).procedure rfl]
    exact setFrozen_procedure (s := recordFault u j s) noWipe
  have ended : (endService (controlFailed u j s)).cat.procedure = .none := ((endService_onlyParts _).procedure rfl).trans failed
  have outside : NoWipe (endService (controlFailed u j s)) := fun step failed => by rw [ended]; exact nofun
  exact ((settle_only outside before).procedure rfl).trans ended

/-! ## An exhausted sequence -/

theorem frameTaken_only (p : Params) (s : State) : Only [.port, .answer, .events, .load] s (frameTaken p s) :=
  (frameTaken_portOnly p s).only

theorem activeVersion_frameTaken (p : Params) (s : State) : activeVersion (frameTaken p s) = activeVersion s := by
  unfold activeVersion
  rw [(frameTaken_only p s).activeRec rfl rfl]

theorem exec_floor {p : Params} (ready : PortRuns s) (right : p.bytes.length = 2) :
    exec (.floor p) s = .next (settle s (floorBody p.bytes (frameTaken p s))) := by
  change execFloor p s = _
  unfold execFloor conclude
  rw [hostCommand_carriedOut ready.1 (.inl ready.2) right]


/-- FLOOR while it can start its append (R65, R179). -/
theorem floorBody_appends {version : BitVec 16} (unfrozen : s.cat.frozen = false)
    (closed : s.cat.procedure = .none) (reclaims : s.cat.stagingState ≠ .reclaiming) (loads : s.cat.stagingState ≠ .loading)
    (above : s.cat.recorded.floor < version) (within : version ≤ activeVersion s) : floorBody (bytes16 version) s =
      addAppend { s.cat.recorded with floor := version } (setCommand .floor (setProcedure .floor s)) := by
  have field : field16 (bytes16 version) 0 = version := by simpa using field16_bytes16 version []
  have differs : version ≠ s.cat.recorded.floor := fun same => absurd above (by rw [same]; exact BitVec.lt_irrefl _)
  have legal : ¬ (decide (version < s.cat.recorded.floor) || decide (activeVersion s < version)) = true := by
    simp only [Bool.or_eq_true, decide_eq_true_eq, not_or, BitVec.not_lt]
    exact ⟨BitVec.le_of_lt above, within⟩
  unfold floorBody
  rw [field]
  dsimp only
  rw [if_neg (by simp [unfrozen]), if_neg (by simp [closed, reclaims, loads]), if_neg legal, if_neg differs]

theorem addAppend_exhausted (exhausted : 0xFFFFFFFE ≤ s.cat.highSeq) (r : CommitRecord) : addAppend r s =
    setFrozen (raise .arrayFault (faultDetail (controlNumber s.cat.commitUnit.unit) 8) s) := if_pos exhausted

theorem setFrozen_floor (open_ : s.cat.procedure = .floor) : setFrozen s =
    closeGate (answer .worn (bytes16 s.cat.recorded.floor) (setProcedure .none (frozenBegun s))) := by
  have failed : procedureFailed (frozenBegun s) =
      answer .worn (bytes16 s.cat.recorded.floor) (setProcedure .none (frozenBegun s)) := by
    unfold procedureFailed
    simp only [show (frozenBegun s).cat.procedure = .floor from open_]
    rfl
  exact congrArg closeGate failed

/-- FLOOR as its append would exceed the last sequence, before the gate closes (R51, R54, R179). -/
def floorFailed (s : State) : State :=
  answer .worn (bytes16 s.cat.recorded.floor) (setProcedure .none (frozenBegun
    (raise .arrayFault (faultDetail (controlNumber s.cat.commitUnit.unit) 8) (setCommand .floor (setProcedure .floor s)))))

theorem floorBody_exhausted {version : BitVec 16} (unfrozen : s.cat.frozen = false)
    (closed : s.cat.procedure = .none) (reclaims : s.cat.stagingState ≠ .reclaiming) (loads : s.cat.stagingState ≠ .loading)
    (above : s.cat.recorded.floor < version) (within : version ≤ activeVersion s) (exhausted : 0xFFFFFFFE ≤ s.cat.highSeq) :
    floorBody (bytes16 version) s = closeGate (floorFailed s) := by
  rw [floorBody_appends unfrozen closed reclaims loads above within,
    addAppend_exhausted (s := setCommand .floor (setProcedure .floor s)) exhausted, setFrozen_floor rfl]
  rfl

/-- Settles O24: the append's content, its two results, and the failure of an exhausted sequence. -/
theorem appendWritesRecord : Obligations.AppendWritesRecord := by
  unfold Obligations.AppendWritesRecord
  refine ⟨fun s v u q r straps wf service op job noWipe => ⟨fun _ erased => ?_, fun left mismatch => ?_⟩, ?_⟩
  · let left : LastLeft := ⟨.expected, straps⟩
    let done : State := appendDone r (stopped v left s)
    have written := recordAt_append wf op job erased
    have result : appendResult v u q r left s = done := appendResult_done noWipe job written
    have outside : NoWipe (stopped v left s) := noWipe
    have kept := viewKept_appendDone r (stopped v left s)
    have calm := calm_settle ((Calm.refl done).op_endService.noWipe (kept.2 outside)) s
    have mem := mem_appendResult v u q r left s
    refine ⟨_, exec_appendRecord service job left, ?_, fun a outside => ?_, ?_⟩
    · rw [mem]
      exact written
    · have place : unitAddr (controlNumber u.unit) (64 * q + 64) = unitAddr (controlNumber u.unit) (64 * q) + 64 := by
        unfold unitAddr; omega
      rw [mem, show left.content = .expected from rfl, read_append wf op job, if_neg (by omega)]
    · rw [result, calm.recorded, (Calm.refl done).op_endService.recorded]
      exact kept.1
  · have failed : appendResult v u q r ⟨left, straps⟩ s = controlFailed u.unit v.job (stopped v ⟨left, straps⟩ s) := if_neg mismatch
    have outside : NoWipe (stopped v ⟨left, straps⟩ s) := noWipe
    refine ⟨_, exec_appendRecord service job ⟨left, straps⟩, mem_appendResult .., ?_, ?_⟩
    · rw [failed, job]
      exact recordJobFailed_settled (s := stopped v ⟨left, straps⟩ s) outside u.unit _ s
    · rw [failed]
      exact recordJobFailed_procedure outside ..
  · intro s version more ready free unfrozen closed reclaims loads above within exhausted
    let p : Params := ⟨bytes16 version, more⟩
    let failed : State := floorFailed (frameTaken p s)
    have cat : (frameTaken p s).cat = s.cat := (frameTaken_only p s).cat rfl
    have body : floorBody (bytes16 version) (frameTaken p s) = closeGate failed := by
      refine floorBody_exhausted (by rwa [cat]) (by rwa [cat]) (by rwa [cat]) (by rwa [cat]) (by rwa [cat]) ?_ (by rwa [cat])
      rwa [activeVersion_frameTaken]
    have runs : exec (.floor p) s = .next (settle s (closeGate failed)) := by rw [exec_floor ready rfl, body]
    have gate := closeGate_only failed
    have still : NotProtected (closeGate failed) := fun v hv => by
      rw [gate.service rfl] at hv
      exact free v ((frameTaken_only p s).service rfl ▸ hv)
    have watch := settle_onlyNotice still s
    have kept : (settle s (closeGate failed)).cat = failed.cat := (watch.cat rfl).trans (gate.cat rfl)
    have port : (settle s (closeGate failed)).port = failed.port := (watch.port rfl).trans (gate.port rfl)
    refine ⟨_, runs, ?_⟩
    unfold Answered
    rw [kept, port, ← cat]
    refine ⟨rfl, rfl, rfl, rfl, ⟨rfl, rfl, rfl⟩, ?_⟩
    exact congrArg (raiseIn .arrayFault _) (frameTaken_events p s)

/-! ## The switch -/

/-- A job that names no block is never returned PROTECTED (R25). -/
theorem takeJob_of_noBlock {j : Job} (h : blockOf j = none) (s : State) : (takeJob s j).op ≠ .protectedReturn := by
  cases j with
  | eraseUnit => cases h
  | programSegment => cases h
  | _ => exact nofun

theorem judgeTarget_of_none (h : s.cat.target = none) : judgeTarget s = s := by
  unfold judgeTarget
  rw [h]

/-- The DONE result of a switch with no candidate pending (R64). -/
def switchEnded (revert : Bool) (s : State) : State :=
  answer .ok (slotCode (stagingSlot s) :: bytes16 (versionOf (stagingRec s).key))
    (raise .switched (versionDetail (versionOf (stagingRec s).key)) (rolesSwapped revert s))

theorem switchAppended_of_noTarget (noTarget : s.cat.target = none) (revert : Bool) :
    switchAppended revert s = switchEnded revert s := by
  rw [switchAppended_eq]
  exact judgeTarget_of_none noTarget

/-- Settles O25: the roles swap, and the rest of the event keeps the catalogue and the port. -/
theorem switchSwapsRoles : Obligations.SwitchSwapsRoles := by
  unfold Obligations.SwitchSwapsRoles
  intro s v u q r left revert service op job matched open_ noTarget waiting
  let viewed : State := recordViewed r (stopped v left s)
  let done : State := switchEnded revert viewed
  have noWipe : NoWipe s := fun step failed => by rw [open_]; exact nofun
  have result : appendResult v u q r left s = done := by
    rw [appendResult_done noWipe job matched, appendDone_switch (s := stopped v left s) open_]
    exact switchAppended_of_noTarget (s := viewed) noTarget revert
  have spared : QueuesSpareActive done := fun j hj => takeJob_of_noBlock (waiting j hj) done
  have watch := settle_onlyNotice (endService_spares spared).1 s
  have ended := endService_onlyParts done
  have port : (settle s (endService done)).port = done.port := (watch.port rfl).trans (ended.port rfl)
  have cat : (settle s (endService done)).cat = (endService done).cat := watch.cat rfl
  refine ⟨_, result ▸ exec_appendRecord service job left, ?_⟩
  unfold Answered
  rw [cat, port, ended.activeSlot rfl, ended.activeState rfl, ended.stagingState rfl, ended.procedure rfl, ended.recorded rfl,
    show (endService done).cat.slotA = _ from ended.slots rfl .a, show (endService done).cat.slotB = _ from ended.slots rfl .b]
  exact ⟨rfl, rfl, rfl, rfl, rfl, rfl, rfl, ⟨rfl, rfl, rfl⟩, rfl⟩

end Sys2Proof.Machine
end

section
/-! SUPPORT. HOST COMMANDS: what a command finds as it is carried out, the jobs that READ, CHECKSUM and IDENT hand over, and the
appends that ACCEPT and FLOOR start. -/

namespace Sys2Proof.Machine

variable {s t : State} {p : Params}

/-! ## The part as a frame is taken -/

/-- A frame taken changes the port's state, answer and command alone (R155). -/
theorem frameTaken_onlyAnswer (p : Params) (s : State) : Only [.port, .answer] s (frameTaken p s) := by
  refine ⟨fun q off => ?_⟩
  by_cases events : q = .events
  · subst events
    exact frameTaken_events p s
  · by_cases load : q = .load
    · subst load
      exact frameTaken_load p s
    · refine (frameTaken_only p s).same q fun inside => ?_
      fin_cases inside <;> simp_all

@[simp] theorem frameTaken_cat (p : Params) (s : State) : (frameTaken p s).cat = s.cat := (frameTaken_only p s).cat rfl

@[simp] theorem frameTaken_line (p : Params) (s : State) : (frameTaken p s).line = s.line := (frameTaken_only p s).line rfl

theorem stagingRec_frameTaken (p : Params) (s : State) : stagingRec (frameTaken p s) = stagingRec s :=
  (frameTaken_only p s).stagingRec rfl rfl

theorem stagingBlock_frameTaken (p : Params) (s : State) (b : Block) : stagingBlock (frameTaken p s) b = stagingBlock s b :=
  (frameTaken_only p s).stagingBlock rfl rfl b

theorem stagingPayload_frameTaken (p : Params) (s : State) : stagingPayload (frameTaken p s) = stagingPayload s := by
  unfold stagingPayload
  rw [stagingRec_frameTaken, frameTaken_cat]

theorem notProtected_frameTaken (free : NotProtected s) (p : Params) : NotProtected (frameTaken p s) :=
  (frameTaken_only p s).free rfl free

theorem idle_frameTaken (idle : SequencerIdle s) (p : Params) : SequencerIdle (frameTaken p s) := by
  unfold SequencerIdle
  rwa [(frameTaken_only p s).flash rfl]

/-- A job is taken as the catalogue stands, whatever the port does (R22, R34). -/
theorem takeJob_portOnly (h : PortOnly s t) (j : Job) : takeJob t j = takeJob s j := by
  rw [show t = { s with port := t.port } from h]
  cases j <;> rfl

theorem PortOnly.trans {u : State} (h : PortOnly s t) (k : PortOnly t u) : PortOnly s u := by
  unfold PortOnly
  rw [show u = { t with port := u.port } from k, show t = { s with port := t.port } from h]

theorem field16_pair (a b : Byte) (l : List Byte) : field16 (a :: b :: l) 0 = a ++ b := rfl

theorem field16_version (v : BitVec 16) : field16 (bytes16 v) 0 = v := by simpa using field16_bytes16 v []

/-- An answer to a frame is the whole of its event (R158). -/
theorem settle_answered (free : NotProtected s) (r : ResultCode) (payload : List Byte) :
    settle s (answer r payload (frameTaken p s)) = answer r payload (frameTaken p s) :=
  settle_portOnly free (answered_frameTaken_portOnly r payload p s)

/-! ## Jobs for the host -/

/-- What a command hands over to an idle sequencer stands in service in the same event (R20, R22). -/
theorem submitted (idle : SequencerIdle s) (port : PortOnly s t) (j : Job) :
    (submit .host j t).flash.service = some (takeJob s j) ∧ DistributionKept s (submit .host j t) ∧
      (submit .host j t).cat = s.cat ∧ (submit .host j t).port = t.port := by
  have only := port.only.next (submit_onlyParts .host j t) (ps := [.port, .answer, .events, .load, .flash, .jobs, .service]) rfl rfl
  have idle : SequencerIdle t := by
    unfold SequencerIdle
    rwa [port.flash]
  refine ⟨?_, DistributionKept.of_only only rfl rfl rfl rfl rfl, only.cat rfl, (submit_onlyParts .host j t).port rfl⟩
  rw [(submit_of_idle idle .host j).1, takeJob_portOnly port]

theorem setCommand_frameTaken_portOnly (c : Command) (p : Params) (s : State) : PortOnly s (setCommand c (frameTaken p s)) :=
  (frameTaken_portOnly p s).trans (show PortOnly (frameTaken p s) (setCommand c (frameTaken p s)) from rfl)

theorem exec_read (ready : PortRuns s) (right : p.bytes.length = 6) : exec (.read p) s = .next (readBody p.bytes (frameTaken p s)) := by
  change execRead p s = _
  unfold execRead proceed
  rw [hostCommand_carriedOut ready.1 (.inl ready.2) right]

theorem exec_checksum (ready : PortRuns s) (right : p.bytes.length = 3) :
    exec (.checksum p) s = .next (checksumBody p.bytes (frameTaken p s)) := by
  change execChecksum p s = _
  unfold execChecksum proceed
  rw [hostCommand_carriedOut ready.1 (.inl ready.2) right]

theorem exec_ident (ready : PortRuns s) (right : p.bytes.length = 2) :
    exec (.ident p) s = .next (identBody p.bytes (frameTaken p s)) := by
  change execIdent p s = _
  unfold execIdent proceed
  rw [hostCommand_carriedOut ready.1 (.inl ready.2) right]

section
variable {role : Role} {roleByte b oh ol lh ll : Byte}

theorem readBody_role (role_ : roleParam roleByte = some role) (s : State) : readBody [roleByte, b, oh, ol, lh, ll] s =
    if 1 ≤ (lh ++ ll).toNat && (lh ++ ll).toNat ≤ 256 && (oh ++ ol).toNat + (lh ++ ll).toNat ≤ 2048 then
      submit .host (.readRange role b.toFin (oh ++ ol).toNat (lh ++ ll).toNat) (setCommand .read s)
    else badParam s := by
  have first : roleParam (byteAt [roleByte, b, oh, ol, lh, ll] 0) = some role := role_
  unfold readBody
  simp only [first]
  rfl

theorem checksumBody_role {first n : Byte} (role_ : roleParam roleByte = some role) (s : State) :
    checksumBody [roleByte, first, n] s =
      if 1 ≤ n.toNat && n.toNat ≤ 32 && first.toNat + n.toNat ≤ 256 then checksumNext role first.toNat n.toNat [] s
      else badParam s := by
  have named : roleParam (byteAt [roleByte, first, n] 0) = some role := role_
  unfold checksumBody
  simp only [named]
  rfl

end

/-- Settles O53: each command's job at the head of an empty sequencer, and its refusals. -/
theorem jobCommandsSubmit : Obligations.JobCommandsSubmit := by
  unfold Obligations.JobCommandsSubmit
  intro s more ready
  refine ⟨fun roleByte b oh ol lh ll role role_ idle => ⟨fun some_ few inside => ?_, fun wrong => ?_⟩,
    fun roleByte first n role role_ idle some_ few inside => ?_,
    fun hi lo => ⟨fun legal blank unused idle => ?_, fun legal taken => ?_, fun illegal => ?_⟩⟩
  · let p : Params := ⟨[roleByte, b, oh, ol, lh, ll], more⟩
    let job : Job := .readRange role b.toFin (oh ++ ol).toNat (lh ++ ll).toNat
    obtain ⟨service, kept, cat, port⟩ := submitted idle (setCommand_frameTaken_portOnly .read p s) job
    refine ⟨_, takeJob s job, ?_, service, rfl, rfl, rfl, by rw [port]; rfl, by rw [port]; rfl, kept, cat⟩
    rw [exec_read ready rfl, readBody_role role_, if_pos (by simp [some_, few, inside])]
  · rw [exec_read ready rfl, readBody_role role_, if_neg (by simp only [Bool.and_eq_true, decide_eq_true_eq]; omega)]
    rfl
  · let p : Params := ⟨[roleByte, first, n], more⟩
    let job : Job := .checkBlock role first.toFin
    have block : (Fin.ofNat 256 (first.toNat + ([] : List CheckLine).length) : Block) = first.toFin :=
      Fin.ext (Nat.mod_eq_of_lt first.isLt)
    obtain ⟨service, kept, cat, port⟩ :=
      submitted idle (setCommand_frameTaken_portOnly (.checksum role first.toNat n.toNat []) p s) job
    refine ⟨_, takeJob s job, ?_, service, rfl, rfl, by rw [port]; rfl, by rw [port]; rfl, kept, cat⟩
    rw [exec_checksum ready rfl, checksumBody_role role_, if_pos (by simp [some_, few, inside])]
    unfold checksumNext
    rw [block]
  · let p : Params := ⟨[hi, lo], more⟩
    let w : State := frameTaken p s
    let marked : State := { w with port := { w.port with identSubmitted := true, command := some (.ident (hi ++ lo)) } }
    have only : PortOnly s marked := (frameTaken_portOnly p s).trans (show PortOnly w marked from rfl)
    obtain ⟨service, kept, _, port⟩ := submitted idle only (.programNode (hi ++ lo))
    refine ⟨_, takeJob s (.programNode (hi ++ lo)), ?_, service, rfl, rfl, by rw [port], by rw [port]; rfl, kept.1⟩
    rw [exec_ident ready rfl]
    unfold identBody
    rw [field16_pair]
    dsimp only
    rw [if_neg (by simp [legal]), if_pos (by simp [blank, unused])]
  · rw [exec_ident ready rfl]
    unfold identBody
    rw [field16_pair]
    dsimp only
    rw [if_neg (by simp [legal]), if_neg (by simpa [imp_iff_not_or] using taken), frameTaken_startUp]
  · rw [exec_ident ready rfl]
    unfold identBody
    rw [field16_pair]
    dsimp only
    rw [if_pos (by simp [illegal])]
    rfl

/-! ## Appends as a command adds them -/

/-- No job on the record work list names a block (R50). -/
def WorkNamesNone (s : State) : Prop := ∀ j ∈ s.cat.work, blockOf j = none

/-- The record work list hands over no job that names the active slot (R25, R50). -/
theorem pumpWork_free (n : Nat) (free : NotProtected s) (names : WorkNamesNone s) :
    NotProtected (pumpWork n s) ∧ WorkNamesNone (pumpWork n s) := by
  induction n generalizing s with
  | zero => exact ⟨free, names⟩
  | succ n ih =>
    unfold pumpWork
    split
    · exact ⟨free, names⟩
    · rename_i j js work
      split
      · have job : blockOf j = none := names j (by rw [work]; exact List.mem_cons_self)
        have rest : WorkNamesNone { s with cat := { s.cat with work := js } } := fun k hk =>
          names k (by rw [work]; exact List.mem_cons_of_mem _ hk)
        refine ih (NotProtected.submit (s := { s with cat := { s.cat with work := js } }) free (takeJob_of_noBlock job _)) ?_
        unfold WorkNamesNone
        rwa [(submit_onlyParts ..).work rfl]
      · exact ⟨free, names⟩

theorem addWork_free (free : NotProtected s) (names : WorkNamesNone s) {j : Job} (job : blockOf j = none) :
    NotProtected (addWork j s) ∧ WorkNamesNone (addWork j s) := by
  refine pumpWork_free 8 free fun k hk => ?_
  obtain old | new := List.mem_append.mp hk
  · exact names k old
  · rw [List.mem_singleton.mp new]
    exact job

/-- The parts that an append touches while the sequence has room. -/
abbrev roomParts : List Part := [.flash, .jobs, .service, .cat, .work, .appends]

/-- An append added while the sequence has room (R51). -/
theorem addAppend_of_room (free : NotProtected s) (names : WorkNamesNone s) (room : s.cat.highSeq < 0xFFFFFFFE)
    (r : CommitRecord) : Only roomParts s (addAppend r s) ∧ (addAppend r s).cat.highSeq = s.cat.highSeq + 1 ∧
      NotProtected (addAppend r s) := by
  unfold addAppend
  rw [if_neg (BitVec.not_le.mpr room)]
  dsimp only
  have seq {u : State} {j : Job} : (addWork j u).cat.highSeq = u.cat.highSeq :=
    (Prod.mk.inj (Prod.mk.inj ((addWork_onlyParts j u).keep .appends rfl)).2).2
  split
  · exact ⟨(only_appends _ _ _ s).next (addWork_onlyParts ..) rfl rfl, seq, (addWork_free (s := { s with cat := { s.cat with
      highSeq := s.cat.highSeq + 1, nextPos := s.cat.nextPos + 1 } }) free names rfl).1⟩
  · obtain ⟨free, names⟩ := addWork_free (j := .eraseControl s.cat.commitUnit.other.unit)
      (s := { s with cat := { s.cat with
        highSeq := s.cat.highSeq + 1, commitUnit := s.cat.commitUnit.other, nextPos := 1 } }) free names rfl
    exact ⟨((only_appends _ _ _ s).next (addWork_onlyParts ..) (ps := roomParts) rfl rfl).andThen (addWork_onlyParts ..) rfl,
      seq.trans seq, (addWork_free free names rfl).1⟩

/-! ## ACCEPT and FLOOR -/

theorem exec_accept (ready : PortRuns s) (right : p.bytes.length = 2) :
    exec (.accept p) s = .next (settle s (acceptBody p.bytes (frameTaken p s))) := by
  change execAccept p s = _
  unfold execAccept conclude
  rw [hostCommand_carriedOut ready.1 (.inl ready.2) right]

/-- A command that has started an append ends its event with the catalogue and the port as the append has left them. -/
theorem settle_appended {w : State} (free : NotProtected w) (names : WorkNamesNone w) (room : w.cat.highSeq < 0xFFFFFFFE)
    (r : CommitRecord) (before : State) :
    Only ([.line, .queue, .notice] ++ roomParts) w (settle before (addAppend r w)) ∧
      (settle before (addAppend r w)).cat.highSeq = w.cat.highSeq + 1 := by
  obtain ⟨only, seq, free⟩ := addAppend_of_room free names room r
  have watch := settle_onlyNotice free before
  exact ⟨only.next watch rfl rfl, (congrArg Catalogue.highSeq (watch.cat rfl)).trans seq⟩

section
variable {version : BitVec 16}

theorem acceptBody_of_version (h : version ≠ 0) (s : State) : acceptBody (bytes16 version) s =
    if s.cat.frozen then answer .worn (stagingPayload s) s
    else if acceptNames s version && s.cat.stagingState = .complete then startSwitch false s
    else if acceptNames s version && s.cat.stagingState = .retired && (stagingRec s).whole then
      if version < s.cat.recorded.floor then answer .refusedFloor (stagingPayload s ++ bytes16 s.cat.recorded.floor) s
      else startSwitch true s
    else answer .refusedState (stagingPayload s) s := by
  unfold acceptBody
  rw [field16_version]
  exact if_neg h

theorem floorBody_of_version (version : BitVec 16) (s : State) : floorBody (bytes16 version) s =
    if s.cat.frozen then answer .worn (bytes16 s.cat.recorded.floor) s
    else if s.cat.procedure ≠ .none || s.cat.stagingState = .reclaiming || s.cat.stagingState = .loading then
      answer .refusedState (bytes16 s.cat.recorded.floor) s
    else if version < s.cat.recorded.floor || activeVersion s < version then
      answer .refusedFloor (bytes16 s.cat.recorded.floor) s
    else if version = s.cat.recorded.floor then answer .ok (bytes16 s.cat.recorded.floor) s
    else addAppend { s.cat.recorded with floor := version } (setCommand .floor (setProcedure .floor s)) := by
  unfold floorBody
  rw [field16_version]

theorem acceptNames_frameTaken (p : Params) (s : State) : acceptNames (frameTaken p s) version = acceptNames s version := by
  unfold acceptNames
  rw [stagingRec_frameTaken, frameTaken_cat]

/-- ACCEPT and FLOOR answered: the answer is the whole event. -/
theorem exec_accept_answered {r : ResultCode} {payload : List Byte} {more : Nat} (ready : PortRuns s) (free : NotProtected s)
    (body : acceptBody (bytes16 version) (frameTaken ⟨bytes16 version, more⟩ s) =
      answer r payload (frameTaken ⟨bytes16 version, more⟩ s)) :
    exec (.accept ⟨bytes16 version, more⟩) s = .next (answer r payload (frameTaken ⟨bytes16 version, more⟩ s)) := by
  rw [exec_accept ready rfl, body, settle_answered free]

theorem exec_floor_answered {r : ResultCode} {payload : List Byte} {more : Nat} (ready : PortRuns s) (free : NotProtected s)
    (body : floorBody (bytes16 version) (frameTaken ⟨bytes16 version, more⟩ s) =
      answer r payload (frameTaken ⟨bytes16 version, more⟩ s)) :
    exec (.floor ⟨bytes16 version, more⟩) s = .next (answer r payload (frameTaken ⟨bytes16 version, more⟩ s)) := by
  rw [exec_floor ready rfl, body, settle_answered free]

end

/-- Settles O54: the refusals by the order of R178 and R179, and the appends that start. -/
theorem switchAndFloorStart : Obligations.SwitchAndFloorStart := by
  unfold Obligations.SwitchAndFloorStart
  intro s version more ready free names
  let p : Params := ⟨bytes16 version, more⟩
  let w : State := frameTaken p s
  have free' : NotProtected w := notProtected_frameTaken free p
  have payload : stagingPayload w = stagingPayload s := stagingPayload_frameTaken p s
  have cat : w.cat = s.cat := frameTaken_cat p s
  have work : WorkNamesNone w := by unfold WorkNamesNone; rwa [cat]
  have rec_ : stagingRec w = stagingRec s := stagingRec_frameTaken p s
  have active : activeVersion w = activeVersion s := activeVersion_frameTaken p s
  refine ⟨fun frozen legal => ⟨?_, ?_⟩, fun unfrozen => ⟨fun closed complete legal names_ room => ?_, fun legal wrong => ?_,
    fun closed retired whole legal names_ low => ?_, fun closed reclaims loads => ⟨fun outside => ?_, fun same within => ?_,
      fun above within room => ?_⟩⟩⟩
  · rw [← payload]
    refine exec_accept_answered ready free ?_
    rw [acceptBody_of_version legal]
    exact if_pos (by rw [cat]; exact frozen)
  · rw [← cat]
    refine exec_floor_answered ready free ?_
    rw [floorBody_of_version]
    exact if_pos (by rw [cat]; exact frozen)
  · let begun : State := setCommand .accept (setProcedure (.switch false) (setStagingState .switching w))
    obtain ⟨only, seq⟩ := settle_appended (w := begun) free' (work : WorkNamesNone w)
      (show w.cat.highSeq < 0xFFFFFFFE by rwa [cat])
      (forwardRecord w) s
    have names' : (acceptNames w version && decide (w.cat.stagingState = .complete)) = true := by
      rw [acceptNames_frameTaken, cat]
      simp [acceptNames, closed, names_, complete]
    have body : acceptBody p.bytes w = addAppend (forwardRecord w) begun := by
      rw [show p.bytes = bytes16 version from rfl, acceptBody_of_version legal, if_neg (by rw [cat]; simp [unfrozen]), if_pos names']
      rfl
    refine ⟨_, body ▸ exec_accept ready rfl, only.stagingState rfl, only.procedure rfl, (only.activeSlot rfl).trans (?_ : w.cat.activeSlot = _),
      (only.recorded rfl).trans (?_ : w.cat.recorded = _), seq.trans (?_ : w.cat.highSeq + 1 = _), (congrArg HostPort.state (only.port rfl)).trans rfl,
      congrArg HostPort.command (only.port rfl)⟩
    all_goals rw [cat]
  · rw [← payload]
    refine exec_accept_answered ready free ?_
    have not (x : StagingState) (hx : x = .complete ∨ x = .retired) :
        ¬ (acceptNames w version && decide (w.cat.stagingState = x)) = true := by
      rw [acceptNames_frameTaken, cat]
      simp only [acceptNames, Bool.and_eq_true, decide_eq_true_eq]
      rintro ⟨⟨closed, names_⟩, staged⟩
      obtain opened | other | ⟨complete, retired⟩ := wrong
      · exact opened closed
      · exact other names_
      · obtain rfl | rfl := hx
        · exact complete staged
        · exact retired staged
    rw [acceptBody_of_version legal, if_neg (by rw [cat]; simp [unfrozen]), if_neg (not _ (.inl rfl)),
      if_neg fun all => not _ (.inr rfl) (Bool.and_eq_true_iff.mp all).1]
  · have names' : acceptNames w version = true := by
      rw [acceptNames_frameTaken]
      simp [acceptNames, closed, names_]
    rw [← payload, ← cat]
    refine exec_accept_answered ready free ?_
    rw [acceptBody_of_version legal, if_neg (by rw [cat]; simp [unfrozen]), if_neg (by rw [cat]; simp [retired]),
      if_pos (by rw [names', rec_, whole, cat, retired]; rfl), if_pos (by rw [cat]; exact low)]
  · rw [← cat]
    refine exec_floor_answered ready free ?_
    rw [floorBody_of_version, if_neg (by rw [cat]; simp [unfrozen]), if_neg (by rw [cat]; simp [closed, reclaims, loads]),
      if_pos (by rw [cat, active]; simpa using outside)]
  · rw [← cat]
    refine exec_floor_answered ready free ?_
    rw [floorBody_of_version, if_neg (by rw [cat]; simp [unfrozen]), if_neg (by rw [cat]; simp [closed, reclaims, loads]),
      if_neg (by rw [cat, active, ← same]; simpa using within), if_pos (by rw [cat]; exact same)]
  · let begun : State := setCommand .floor (setProcedure .floor w)
    obtain ⟨only, seq⟩ := settle_appended (w := begun) free' (work : WorkNamesNone w)
      (show w.cat.highSeq < 0xFFFFFFFE by rwa [cat])
      { w.cat.recorded with floor := version } s
    have body : floorBody p.bytes w = addAppend { w.cat.recorded with floor := version } begun :=
      floorBody_appends (s := w) (by rwa [cat]) (by rwa [cat]) (by rwa [cat]) (by rwa [cat]) (by rwa [cat]) (by rwa [active])
    refine ⟨_, body ▸ exec_floor ready rfl, only.procedure rfl, (only.recorded rfl).trans (?_ : w.cat.recorded = _),
      seq.trans (?_ : w.cat.highSeq + 1 = _),
      (congrArg HostPort.state (only.port rfl)).trans rfl, congrArg HostPort.command (only.port rfl)⟩
    all_goals rw [cat]

end Sys2Proof.Machine
end

section
/-! SUPPORT. STAGING CLEARED: what a reclaim, a LOAD BEGIN and a WIPE do to the fetch and serve work of the staging slot, and the
statements of a newer candidate, of origin loading and of WIPE. -/

namespace Sys2Proof.Machine

variable {s t : State} {i j : Fin 4} {k : Key} {b : Block} {p : Params}

/-! ## The fetch work abandoned (R130) -/

theorem ctxOf_releaseCtx_of_ne (h : i ≠ j) (s : State) : ctxOf (releaseCtx j s) i = ctxOf s i := by
  have orphaned (c : Prop) [Decidable c] : ctxOf (if c then orphanService s else s) i = ctxOf s i := by split <;> rfl
  unfold releaseCtx
  extract_lets c taken held t u
  have withdrawn : ctxOf t i = ctxOf s i :=
    ((txGiveUp_only ..).ctx rfl i).trans (((withdrawJobs_only ..).ctx rfl i).trans (orphaned _))
  have cleared : ctxOf u i = ctxOf s i := (ctxOf_setCtx_of_ne h .cleared t).trans withdrawn
  exact cleared

/-- The release of the contexts that are open (R130). -/
def releaseOpen (l : List (Fin 4)) (s : State) : State :=
  l.foldl (fun t i => if (ctxOf t i).state = .idle then t else releaseCtx i t) s

theorem releaseOpen_idle (l : List (Fin 4)) (h : i ∈ l ∨ (ctxOf s i).state = .idle) : (ctxOf (releaseOpen l s) i).state = .idle := by
  induction l generalizing s with
  | nil => exact h.resolve_left List.not_mem_nil
  | cons j js ih =>
    have step : i ∈ js ∨ (ctxOf (if (ctxOf s j).state = .idle then s else releaseCtx j s) i).state = .idle := by
      by_cases own : i = j
      · subst own
        refine .inr ?_
        split
        · assumption
        · rw [ctxOf_releaseCtx]
          rfl
      · obtain later | idle := h
        · exact .inl ((List.mem_cons.mp later).resolve_left own)
        · refine .inr ?_
          split
          · exact idle
          · rwa [ctxOf_releaseCtx_of_ne own]
    exact ih step

theorem abandon_eq (s : State) : abandon s = { releaseOpen ctxIds s with
    fetch := { (releaseOpen ctxIds s).fetch with deferral := [] } } := by
  unfold abandon releaseOpen
  dsimp only

theorem abandon_idle (s : State) (i : Fin 4) : (ctxOf (abandon s) i).state = .idle := by
  rw [abandon_eq, (only_deferral [] _).ctx rfl i]
  exact releaseOpen_idle ctxIds (.inl (by fin_cases i <;> decide))

theorem abandon_deferral (s : State) : (abandon s).fetch.deferral = [] := by rw [abandon_eq]

/-! ## The service through cancellations -/

/-- The operation of the service is the same, if it is orphaned or not. -/
def SameOp (s t : State) : Prop := t.flash.service.map (fun v => (v.job, v.op)) = s.flash.service.map fun v => (v.job, v.op)

theorem SameOp.trans {u : State} (h : SameOp s t) (g : SameOp t u) : SameOp s u := Eq.trans g h

theorem Only.sameOp {ps : List Part} (h : Only ps s t) (off : ps.elem .service = false) : SameOp s t := by
  unfold SameOp
  rw [h.service off]

theorem sameOp_releaseCtx (i : Fin 4) (s : State) : SameOp s (releaseCtx i s) := by
  have orphaned (c : Prop) [Decidable c] : SameOp s (if c then orphanService s else s) := by
    split
    · unfold SameOp orphanService
      dsimp only
      rw [Option.map_map]
      rfl
    · rfl
  unfold releaseCtx
  extract_lets c taken held t u
  have withdrawn : SameOp s t := (orphaned _).trans (((withdrawJobs_only ..).next (txGiveUp_only ..)
    (ps := [.flash, .jobs, .line, .queue]) rfl rfl).sameOp rfl)
  have cleared : SameOp s u := withdrawn.trans ((setCtx_only i .cleared t).sameOp rfl)
  exact cleared

theorem sameOp_abandon (s : State) : SameOp s (abandon s) := by
  have released (l : List (Fin 4)) (s : State) : SameOp s (releaseOpen l s) := by
    induction l generalizing s with
    | nil => rfl
    | cons j js ih =>
      refine SameOp.trans ?_ (ih _)
      dsimp only
      split
      · rfl
      · exact sameOp_releaseCtx j s
  rw [abandon_eq]
  exact (released ctxIds s).trans ((only_deferral [] _).sameOp rfl)

theorem SameOp.free (h : SameOp s t) (free : NotProtected s) : NotProtected t := by
  intro v service
  unfold SameOp at h
  rw [service] at h
  obtain ⟨w, before, same⟩ := Option.map_eq_some_iff.mp h.symm
  rw [← (Prod.mk.inj same).2]
  exact free w before

/-! ## The serve entries of a key cancelled (R148) -/

/-- The keys and blocks that have a serve entry. -/
def servedBlocks (s : State) : List (Key × Block) := s.serve.queue.map fun e => (e.key, e.block)

theorem Only.servedBlocks {ps : List Part} (h : Only ps s t) (off : ps.elem .serveQueue = false) :
    servedBlocks t = servedBlocks s := by
  unfold Machine.servedBlocks
  rw [h.serveQueue off]

theorem cancelBuffer_serveQueue (k : Key) (b : Block) (i : OutBufId) (s : State) :
    (cancelBuffer k b i s).serve.queue = s.serve.queue := by
  unfold cancelBuffer
  split
  · split
    · split <;> exact (setBuf_only ..).serveQueue rfl
    · rfl
  · split
    · split <;> exact (setBuf_only ..).serveQueue rfl
    · rfl
  · rfl

theorem servedBlocks_offerNext (s : State) : servedBlocks (offerNext s) = servedBlocks s := by
  unfold servedBlocks
  obtain same | ⟨e, es, queue, after⟩ := offerNext_queue s
  · rw [same]
  · rw [after, queue]
    rfl

theorem servedBlocks_cancelEntry (k : Key) (b : Block) (s : State) :
    servedBlocks (cancelEntry k b s) = (servedBlocks s).filter (fun x => x ≠ (k, b)) := by
  have removed : servedBlocks (removeEntry k b s) = (servedBlocks s).filter (fun x => x ≠ (k, b)) := by
    unfold servedBlocks removeEntry
    rw [setServeQueue_queue, List.filter_map]
    refine congrArg (List.map _) (List.filter_congr fun e _ => ?_)
    simp [ServeEntry.isFor, Prod.ext_iff]
  unfold cancelEntry
  rw [servedBlocks_offerNext, ← removed]
  unfold servedBlocks
  rw [cancelBuffer_serveQueue, cancelBuffer_serveQueue, (txGiveUp_only ..).serveQueue rfl]

/-- No serve entry of a cancelled key is left, and none comes in (R148). -/
theorem cancelKey_served (k : Key) (s : State) : ∀ x ∈ servedBlocks (cancelKey (some k) s), x.1 ≠ k := by
  have fold (es : List ServeEntry) (s : State) : ∀ x ∈ servedBlocks (es.foldl (fun t e => cancelEntry e.key e.block t) s),
      x ∈ servedBlocks s ∧ ∀ e ∈ es, x ≠ (e.key, e.block) := by
    induction es generalizing s with
    | nil => exact fun x hx => ⟨hx, fun e he => absurd he List.not_mem_nil⟩
    | cons e es ih =>
      intro x hx
      obtain ⟨before, others⟩ := ih (cancelEntry e.key e.block s) x hx
      rw [servedBlocks_cancelEntry] at before
      obtain ⟨before, own⟩ := List.mem_filter.mp before
      refine ⟨before, fun f hf => ?_⟩
      obtain rfl | hf := List.mem_cons.mp hf
      · simpa using own
      · exact others f hf
  intro x hx same
  obtain ⟨before, none⟩ := fold _ s x hx
  obtain ⟨e, queued, rfl⟩ := List.mem_map.mp before
  exact none e (List.mem_filter.mpr ⟨queued, by simpa using same⟩) rfl

theorem cancelKey_queue (old : Option Key) (s : State) (e : ServeEntry) (he : e ∈ (cancelKey old s).serve.queue) : old ≠ some e.key := by
  rintro rfl
  have queued : (e.key, e.block) ∈ servedBlocks (cancelKey (some e.key) s) := List.mem_map.mpr ⟨e, he, rfl⟩
  exact cancelKey_served e.key s _ queued rfl

/-! ## The staging slot cleared for other work (R59, R66) -/

/-- A staging slot's work abandoned: the fetch work, the entries of its key, its block states, its marks (R59, R66). -/
def stagingCleared (old : Option Key) (s : State) : State :=
  let t := updateStaging SlotRecord.unknowing (cancelKey old (abandon s))
  let u := dropMarks (stagingSlot t) t
  addWork (.eraseControl (marksRow (stagingSlot u))) u

theorem startReclaim_eq (k : Key) (s : State) : startReclaim k s =
    let t := stagingCleared (stagingRec s).key (updateStaging (fun r => { r.keyless with key := some k })
      (setStagingState .reclaiming (setProcedure .reclaim s)))
    addAppend { t.cat.recorded with stagingKey := some k, role := .fetching } t := rfl

theorem startLoad_eq (s : State) : startLoad s =
    let t := stagingCleared (stagingRec s).key (updateStaging SlotRecord.keyless
      (setStagingState .loading (setLoad .cleared (setCommand .loadBegin (setProcedure .loadBegin s)))))
    addAppend { t.cat.recorded with stagingKey := none, role := .none } t := rfl

/-- What the clearing leaves of the part (R59, R66). -/
structure Cleared (old : Option Key) (s t : State) : Prop where
  only : Only ([.deferral, .cat, .slots, .work, .serve, .serveQueue, .bufs] ++ releaseParts) s t
  free : NotProtected t
  names : WorkNamesNone t
  slot : stagingRec t = (stagingRec s).unknowing
  active : activeRec t = activeRec s
  idle : ∀ i, (ctxOf t i).state = .idle
  deferral : t.fetch.deferral = []
  served : ∀ e ∈ t.serve.queue, old ≠ some e.key

theorem cleared_stagingCleared (old : Option Key) (free : NotProtected s) (names : WorkNamesNone s) :
    Cleared old s (stagingCleared old s) := by
  let left : State := abandon s
  let cancelled : State := cancelKey old left
  let unknowing : State := updateStaging SlotRecord.unknowing cancelled
  let dropped : State := dropMarks (stagingSlot unknowing) unknowing
  have toCancelled : Only ([.deferral, .serve, .serveQueue, .bufs] ++ releaseParts) s cancelled :=
    (abandon_only s).next (cancelKey_only old left) rfl rfl
  have toUnknowing : Only ([.deferral, .cat, .slots, .serve, .serveQueue, .bufs] ++ releaseParts) s unknowing :=
    toCancelled.next (updateStaging_only ..) rfl rfl
  have marks : Only [.cat, .work, .flash, .jobs] unknowing dropped := dropMarks_only ..
  have free' : NotProtected dropped :=
    marks.free rfl ((updateStaging_only _ cancelled).free rfl ((cancelKey_only old left).free rfl ((sameOp_abandon s).free free)))
  have names' : WorkNamesNone dropped := by
    intro j hj
    have before : j ∈ unknowing.cat.work := List.mem_of_mem_filter hj
    rw [toUnknowing.work rfl] at before
    exact names j before
  have added := addWork_onlyParts (.eraseControl (marksRow (stagingSlot dropped))) dropped
  obtain ⟨free'', names''⟩ := addWork_free free' names' (j := .eraseControl (marksRow (stagingSlot dropped))) rfl
  have after : Only [.cat, .work, .flash, .jobs, .service] unknowing (stagingCleared old s) := marks.next added rfl rfl
  refine ⟨toUnknowing.next after rfl rfl, free'', names'', ?_, ?_, fun i => ?_, ?_, fun e he => ?_⟩
  · rw [after.stagingRec rfl rfl, show stagingRec unknowing = _ from stagingRec_setSlot .., toCancelled.stagingRec rfl rfl]
  · rw [after.activeRec rfl rfl, show activeRec unknowing = _ from activeRec_setSlot .., toCancelled.activeRec rfl rfl]
  · rw [after.ctx rfl i, (updateStaging_only _ cancelled).ctx rfl i, (cancelKey_only old left).ctx rfl i]
    exact abandon_idle s i
  · rw [after.deferral rfl, (updateStaging_only _ cancelled).deferral rfl, (cancelKey_only old left).deferral rfl]
    exact abandon_deferral s
  · rw [after.serveQueue rfl, (updateStaging_only _ cancelled).serveQueue rfl] at he
    exact cancelKey_queue old left e he

/-- The append that follows, and the rest of the event (R51, R59, R66). -/
theorem Cleared.appended {old : Option Key} (h : Cleared old s t) (room : s.cat.highSeq < 0xFFFFFFFE) (r : CommitRecord)
    (before : State) : Only ([.line, .queue, .notice] ++ roomParts) t (settle before (addAppend r t)) ∧
      (settle before (addAppend r t)).cat.highSeq = s.cat.highSeq + 1 := by
  have seq : t.cat.highSeq = s.cat.highSeq := (Prod.mk.inj (Prod.mk.inj (h.only.keep .appends rfl)).2).2
  obtain ⟨only, added⟩ := settle_appended h.free h.names (by rwa [seq]) r before
  exact ⟨only, by rw [added, seq]⟩

/-- Of an unknowing slot every block is UNKNOWN or BLANK (R59, R66). -/
theorem unknowing_blocks (r : SlotRecord) (b : Block) : r.unknowing.blocks[b] = .unknown ∨ r.unknowing.blocks[b] = .blank := by
  by_cases blank : r.blocks[b] = .blank <;> simp_all [SlotRecord.unknowing, mapVec]

/-! ## A newer candidate (R56, R57, R59) -/

theorem takeUp_settled (settled : s.cat.stagingState = .empty ∨ s.cat.stagingState = .fetching ∨ s.cat.stagingState = .complete ∨
    s.cat.stagingState = .retired ∨ s.cat.stagingState = .declined) (closed : s.cat.procedure = .none) (k : Key) (src : Addr) :
    takeUp k src s = startReclaim k s := by
  unfold takeUp
  obtain h | h | h | h | h := settled <;> rw [h, closed] <;> rfl

theorem judge_newer (run : running s = true) (unfrozen : s.cat.frozen = false) (family : ofFamily s k = true)
    (new : k ∉ heldKeys s) (versions : ∀ h ∈ heldKeys s, h.version ≠ k.version) (newer : candidateNewer s k = true) (src : Addr) :
    judge k src s = takeUp k src s := by
  unfold judge
  rw [if_neg (by simp [run, unfrozen, family]), if_neg (by simpa using new),
    if_neg (by simpa using versions), if_pos newer]

theorem judge_conflict (run : running s = true) (unfrozen : s.cat.frozen = false) (family : ofFamily s k = true)
    (new : k ∉ heldKeys s) (versions : ∃ h ∈ heldKeys s, h.version = k.version) (src : Addr) :
    judge k src s = raise .digestConflict (byteDetail (src.zeroExtend 8)) s := by
  unfold judge
  rw [if_neg (by simp [run, unfrozen, family]), if_neg (by simpa using new), if_pos (by simpa using versions)]

/-- Settles O43: the candidate taken up, and the conflict. -/
theorem releaseStartsReclaim : Obligations.ReleaseStartsReclaim := by
  unfold Obligations.ReleaseStartsReclaim
  intro s src key count heard family run unfrozen version some_ free new
  let touched : State := afterTouch src s
  have runs : exec (.releaseReceived src key count) s = .next (settle s (judge key src touched)) := by
    rw [exec_releaseReceived heard, if_pos family]
    unfold releaseCandidate
    exact congrArg (Host.Outcome.next ∘ settle s) (if_pos (by simpa using ⟨version, some_⟩))
  refine ⟨fun versions newer closed settled room names => ?_, fun versions => ?_⟩
  · let begun : State := updateStaging (fun r => { r.keyless with key := some key })
      (setStagingState .reclaiming (setProcedure .reclaim touched))
    let cleared : State := stagingCleared (stagingRec touched).key begun
    have toBegun : Only [.cat, .procedure, .stagingState, .slots] touched begun :=
      ((setProcedure_only ..).next (setStagingState_only ..) (ps := [.cat, .procedure, .stagingState]) rfl rfl).next
        (updateStaging_only ..) rfl rfl
    have facts : Cleared (stagingRec touched).key begun cleared :=
      cleared_stagingCleared _ (toBegun.free rfl free) (by unfold WorkNamesNone; rw [toBegun.work rfl]; exact names)
    have seq : begun.cat.highSeq = s.cat.highSeq := (Prod.mk.inj (Prod.mk.inj (toBegun.keep .appends rfl)).2).2
    obtain ⟨only, added⟩ := facts.appended (by rwa [seq])
      { cleared.cat.recorded with stagingKey := some key, role := .fetching } s
    have judged : judge key src touched = addAppend { cleared.cat.recorded with stagingKey := some key, role := .fetching } cleared := by
      rw [judge_newer (s := touched) run unfrozen family new versions newer, takeUp_settled (s := touched) settled closed,
        startReclaim_eq]
    have slot : stagingRec (settle s (judge key src touched)) = (stagingRec begun).unknowing := by
      rw [judged, only.stagingRec rfl rfl, facts.slot]
    have begunRec : stagingRec begun = { (stagingRec touched).keyless with key := some key } := stagingRec_setSlot ..
    refine ⟨_, runs, ?_, ?_, ?_, fun b => ?_, fun i => ?_, ?_, fun e he => ?_, ?_, ?_, ?_, ?_⟩
    · rw [judged, only.stagingState rfl, facts.only.stagingState rfl, (updateStaging_only ..).stagingState rfl]
      rfl
    · rw [judged, only.procedure rfl, facts.only.procedure rfl, (updateStaging_only ..).procedure rfl]
      rfl
    · rw [slot, begunRec]
      rfl
    · unfold stagingBlock
      rw [slot]
      exact unknowing_blocks _ b
    · rw [judged, only.ctx rfl i]
      exact facts.idle i
    · rw [judged, only.deferral rfl]
      exact facts.deferral
    · rw [judged, only.serveQueue rfl] at he
      exact facts.served e he
    · rw [judged, only.activeSlot rfl, facts.only.activeSlot rfl, toBegun.activeSlot rfl]
      rfl
    · rw [judged, only.activeRec rfl rfl, facts.active, show activeRec begun = _ from activeRec_setSlot ..]
      rfl
    · rw [judged, only.recorded rfl, facts.only.recorded rfl, toBegun.recorded rfl]
      rfl
    · rw [judged, added, seq]
  · rw [runs, judge_conflict (s := touched) run unfrozen family new versions,
      settle_eq (s := s) (t := raise .digestConflict (byteDetail (src.zeroExtend 8)) touched) free rfl]

end Sys2Proof.Machine
end

section
/-! SUPPORT. ORIGIN LOADING: LOAD BEGIN, LOAD DATA, LOAD END and LOAD ABORT as they are carried out. -/

namespace Sys2Proof.Machine

variable {s t : State} {p : Params} {b : Block}

theorem exec_loadBegin (ready : PortRuns s) (right : p.bytes.length = 0) :
    exec (.loadBegin p) s = .next (settle s (loadBeginBody (frameTaken p s))) := by
  change execLoadBegin p s = _
  unfold execLoadBegin conclude
  rw [hostCommand_carriedOut ready.1 (.inl ready.2) right]

theorem exec_loadData (ready : PortRuns s) (right : p.bytes.length = 130) :
    exec (.loadData p) s = .next (settle s (loadDataBody p.bytes (frameTaken p s))) := by
  change execLoadData p s = _
  unfold execLoadData conclude
  rw [hostCommand_carriedOut ready.1 (.inl ready.2) right]

theorem exec_loadEnd (ready : PortRuns s) (right : p.bytes.length = 0) :
    exec (.loadEnd p) s = .next (settle s (loadEndBody (frameTaken p s))) := by
  change execLoadEnd p s = _
  unfold execLoadEnd conclude
  rw [hostCommand_carriedOut ready.1 (.inl ready.2) right]

theorem exec_loadAbort (ready : PortRuns s) (right : p.bytes.length = 0) :
    exec (.loadAbort p) s = .next (settle s (loadAbortBody (frameTaken p s))) := by
  change execLoadAbort p s = _
  unfold execLoadAbort conclude
  rw [hostCommand_carriedOut ready.1 (.inl ready.2) right]

/-! ## LOAD BEGIN (R66, R181) -/

/-- The part as LOAD BEGIN has taken the staging slot, before its work is abandoned (R66). -/
def loadBegun (s : State) : State :=
  updateStaging SlotRecord.keyless
    (setStagingState .loading (setLoad .cleared (setCommand .loadBegin (setProcedure .loadBegin s))))

theorem loadBegun_only (s : State) :
    Only [.cat, .procedure, .stagingState, .slots, .port, .answer, .load] s (loadBegun s) :=
  ((((setProcedure_only .loadBegin s).next (setCommand_only ..) (ps := [.cat, .procedure, .port, .answer]) rfl rfl).next
    (setLoad_only ..) (ps := [.cat, .procedure, .port, .answer, .load]) rfl rfl).next (setStagingState_only ..)
    (ps := [.cat, .procedure, .stagingState, .port, .answer, .load]) rfl rfl).next (updateStaging_only ..) rfl rfl

theorem loadBegun_port (s : State) : (loadBegun s).port = { s.port with command := some .loadBegin, load := .cleared } := setSlot_port ..

theorem stagingRec_loadBegun (s : State) : stagingRec (loadBegun s) = (stagingRec s).keyless := stagingRec_setSlot ..

theorem activeRec_loadBegun (s : State) : activeRec (loadBegun s) = activeRec s := activeRec_setSlot ..

/-- What LOAD BEGIN leaves at the end of its event (R66, R181). -/
theorem startLoad_settled (free : NotProtected s) (names : WorkNamesNone s) (room : s.cat.highSeq < 0xFFFFFFFE) (before : State) :
    let t := settle before (startLoad s)
    t.cat.stagingState = .loading ∧ t.cat.procedure = .loadBegin ∧ stagingRec t = (stagingRec s).keyless.unknowing ∧
      t.port = { s.port with command := some .loadBegin, load := .cleared } ∧ (∀ i, (ctxOf t i).state = .idle) ∧
      activeRec t = activeRec s := by
  have begun := loadBegun_only s
  have facts := cleared_stagingCleared (stagingRec s).key (begun.free rfl free)
    (by unfold WorkNamesNone; rw [begun.work rfl]; exact names)
  have seq : (loadBegun s).cat.highSeq = s.cat.highSeq := (Prod.mk.inj (Prod.mk.inj (begun.keep .appends rfl)).2).2
  have eq : startLoad s = addAppend { (stagingCleared (stagingRec s).key (loadBegun s)).cat.recorded with
      stagingKey := none, role := .none } (stagingCleared (stagingRec s).key (loadBegun s)) := startLoad_eq s
  rw [eq]
  obtain ⟨only, -⟩ := facts.appended (by rwa [seq]) { (stagingCleared (stagingRec s).key (loadBegun s)).cat.recorded with
    stagingKey := none, role := .none } before
  refine ⟨?_, ?_, ?_, ?_, fun i => ?_, ?_⟩
  · rw [only.stagingState rfl, facts.only.stagingState rfl]
    exact (updateStaging_only ..).stagingState rfl
  · rw [only.procedure rfl, facts.only.procedure rfl]
    exact (updateStaging_only ..).procedure rfl
  · rw [only.stagingRec rfl rfl, facts.slot, stagingRec_loadBegun]
  · rw [only.port rfl, facts.only.port rfl, loadBegun_port]
  · rw [only.ctx rfl i]
    exact facts.idle i
  · rw [only.activeRec rfl rfl, facts.active, activeRec_loadBegun]

theorem loadBeginBody_starts (unfrozen : s.cat.frozen = false) (closed : s.cat.procedure = .none)
    (reclaims : s.cat.stagingState ≠ .reclaiming) (loads : s.cat.stagingState ≠ .loading) (family : s.startUp.family ≠ none) :
    loadBeginBody s = startLoad s := by
  unfold loadBeginBody
  rw [if_neg (by simp [unfrozen]), if_neg (by simp [closed, reclaims, loads, family])]

/-! ## LOAD DATA (R182, R183) -/

section
variable {bb g : Byte} {d : List Byte}

theorem loadDataBody_eq (low : g.toNat ≤ 15) (s : State) : loadDataBody (bb :: g :: d) s =
    if s.cat.stagingState ≠ .loading then answer .refusedState [] s
    else loadSegment bb.toFin (Fin.ofNat 16 g.toNat) d s := by
  unfold loadDataBody
  rw [if_neg (show ¬ 15 < (byteAt (bb :: g :: d) 1).toNat from Nat.not_lt.mpr low)]
  rfl

end

/-- A block's program handed to an idle sequencer (R22, R183). -/
theorem loadProgram_taken (idle : SequencerIdle s) (state : stagingBlock s b = .blank ∨ stagingBlock s b = .filling) (g : Seg)
    (d : List Byte) : ∃ v, (loadProgram b g d s).flash.service = some v ∧
      v.job = .programSegment .host (stagingSlot s) b g d ∧ v.op = .main ∧ stagingBlock (loadProgram b g d s) b = .filling := by
  let begun : State := blockEvent .programSubmitted b s
  have slot : stagingSlot begun = stagingSlot s := stagingSlot_blockEvent ..
  have idle' : SequencerIdle begun := by
    unfold SequencerIdle
    rwa [(blockEvent_only .programSubmitted b s).flash rfl]
  refine ⟨_, (submit_of_idle idle' .host _).1, rfl, ?_, ?_⟩
  · rw [← slot]
    exact takeJob_program_staging ..
  · unfold loadProgram
    rw [(submit_onlyParts ..).stagingBlock rfl rfl, stagingBlock_blockEvent_same]
    obtain blank | filling := state
    · rw [blank]
      rfl
    · rw [filling]
      rfl

theorem loadProgram_only (b : Block) (g : Seg) (d : List Byte) (s : State) :
    Only [.cat, .slots, .flash, .jobs, .service] s (loadProgram b g d s) :=
  (blockEvent_only ..).next (submit_onlyParts ..) rfl rfl

theorem steady_loadProgram (b : Block) (g : Seg) (d : List Byte) (s : State) : Steady s (loadProgram b g d s) := by
  refine (steady_blockEvent .programSubmitted nofun b s).trans (steady_submit ?_)
  rw [← stagingSlot_blockEvent .programSubmitted b s, takeJob_program_staging]
  exact nofun

theorem clearLoadMask_only (b : Block) (s : State) : Only [.port, .load] s (clearLoadMask b s) := by
  unfold clearLoadMask
  exact .ite (fun _ => (setLoad_only ..).trans (setLoad_only ..)) fun _ => setLoad_only ..

theorem loadMask_clearLoadMask (b : Block) (s : State) : loadMask (clearLoadMask b s) b = 0 := by
  unfold clearLoadMask loadMask
  dsimp only
  split <;> simp [setLoadMask, setLoad]

/-- A block's erase handed to an idle sequencer (R22, R183). -/
theorem loadErase_taken (idle : SequencerIdle s) (state : stagingBlock s b = .unknown ∨ stagingBlock s b = .dead) :
    ∃ v, (loadErase b s).flash.service = some v ∧ v.job = .eraseUnit .host (stagingSlot s) b ∧ v.op = .erase 0 ∧
      stagingBlock (loadErase b s) b = .erasing := by
  let cleared : State := clearLoadMask b s
  let begun : State := blockEvent .eraseSubmitted b cleared
  have toBegun : Only [.port, .load, .cat, .slots] s begun := (clearLoadMask_only b s).next (blockEvent_only ..) rfl rfl
  have slot : stagingSlot begun = stagingSlot s := (stagingSlot_blockEvent ..).trans ((clearLoadMask_only b s).stagingSlot rfl)
  have idle' : SequencerIdle begun := by
    unfold SequencerIdle
    rwa [toBegun.flash rfl]
  refine ⟨_, (submit_of_idle idle' .host _).1, rfl, ?_, ?_⟩
  · rw [← slot]
    exact takeJob_erase_staging ..
  · unfold loadErase
    rw [(submit_onlyParts ..).stagingBlock rfl rfl, stagingBlock_blockEvent_same, (clearLoadMask_only b s).stagingBlock rfl rfl]
    obtain unknown | dead := state
    · rw [unknown]
      rfl
    · rw [dead]
      rfl

theorem loadErase_only (b : Block) (s : State) : Only [.port, .load, .cat, .slots, .flash, .jobs, .service] s (loadErase b s) :=
  ((clearLoadMask_only b s).next (blockEvent_only ..) (ps := [.port, .load, .cat, .slots]) rfl rfl).next (submit_onlyParts ..) rfl rfl

theorem steady_loadErase (b : Block) (s : State) : Steady s (loadErase b s) := by
  have cleared := clearLoadMask_only b s
  refine ((cleared.steady rfl).trans (steady_blockEvent .eraseSubmitted nofun b _)).trans (steady_submit ?_)
  rw [← cleared.stagingSlot rfl, ← stagingSlot_blockEvent .eraseSubmitted b (clearLoadMask b s), takeJob_erase_staging]
  exact nofun

theorem loadMask_loadErase (b : Block) (s : State) : loadMask (loadErase b s) b = 0 := by
  have kept : (loadErase b s).port = (clearLoadMask b s).port :=
    ((blockEvent_only .eraseSubmitted b (clearLoadMask b s)).next (submit_onlyParts ..)
      (ps := [.cat, .slots, .flash, .jobs, .service]) rfl rfl).port rfl
  unfold loadMask
  rw [kept]
  exact loadMask_clearLoadMask b s

theorem loadPayload_byte (bb : Byte) (m : Mask) : loadPayload bb.toFin m = bb :: bytes16 m := by
  unfold loadPayload
  simp

/-- Settles O55: LOAD BEGIN's end of event, and LOAD DATA by the state of its block. -/
theorem loadingTakesSegments : Obligations.LoadingTakesSegments := by
  unfold Obligations.LoadingTakesSegments
  intro s more ready free
  refine ⟨fun unfrozen closed reclaims loads family room names => ?_, fun bb g d length low => ⟨fun out => ?_, fun loading idle =>
    ⟨fun state new => ?_, fun state => ?_, fun state old => ?_⟩⟩⟩
  · let p : Params := ⟨[], more⟩
    let w : State := frameTaken p s
    have cat : w.cat = s.cat := frameTaken_cat p s
    have runs : exec (.loadBegin p) s = .next (settle s (startLoad w)) := by
      rw [exec_loadBegin ready rfl, loadBeginBody_starts (by rwa [cat]) (by rwa [cat]) (by rwa [cat]) (by rwa [cat])
        (by rwa [frameTaken_startUp])]
    obtain ⟨state, procedure, slot, port, contexts, active⟩ := startLoad_settled (s := w) (notProtected_frameTaken free p)
      (by unfold WorkNamesNone; rwa [cat]) (by rwa [cat]) s
    refine ⟨_, runs, state, procedure, by rw [slot]; rfl, by rw [slot]; rfl, fun b => ?_, by rw [port], contexts,
      active.trans ((frameTaken_only p s).activeRec rfl rfl), by rw [port]; rfl, by rw [port]⟩
    unfold stagingBlock
    rw [slot]
    exact unknowing_blocks _ b
  · rw [exec_loadData ready (by simp [length]), loadDataBody_eq low, if_pos (by rw [frameTaken_cat]; exact out), settle_answered free]
  all_goals
    let p : Params := ⟨bb :: g :: d, more⟩
    let w : State := frameTaken p s
    let x : Command := .loadData bb.toFin (Fin.ofNat 16 g.toNat) d
    have taken : Only [.port, .answer] s (setCommand x w) := (frameTaken_onlyAnswer p s).trans (setCommand_only ..)
    have block : stagingBlock w bb.toFin = stagingBlock s bb.toFin := stagingBlock_frameTaken ..
    have mask : loadMask w bb.toFin = loadMask s bb.toFin := by unfold loadMask; rw [frameTaken_load]
    have idle' : SequencerIdle (setCommand x w) := idle_frameTaken idle p
    have slot : stagingSlot (setCommand x w) = stagingSlot s := taken.stagingSlot rfl
    have body : exec (.loadData p) s = .next (settle s (loadSegment bb.toFin (Fin.ofNat 16 g.toNat) d w)) := by
      rw [exec_loadData ready (by simp [p, length]), loadDataBody_eq low, if_neg (by rw [frameTaken_cat]; simp [loading])]
  · have programs : loadSegment bb.toFin (Fin.ofNat 16 g.toNat) d w = loadProgram bb.toFin (Fin.ofNat 16 g.toNat) d (setCommand x w) := by
      unfold loadSegment
      rw [if_neg (by rw [block]; obtain h | h := state <;> simp [h]), if_pos (by rw [block, mask, new]; simpa using state)]
    obtain ⟨v, service, job, op, filling⟩ := loadProgram_taken idle' (state.imp block.trans block.trans) (Fin.ofNat 16 g.toNat) d
    have only := taken.next (loadProgram_only bb.toFin (Fin.ofNat 16 g.toNat) d _) (ps := [.port, .answer, .cat, .slots, .flash, .jobs, .service])
      rfl rfl
    refine ⟨_, v, ?_, service, slot ▸ job, op, filling, congrArg HostPort.state ((loadProgram_only ..).port rfl), only.load rfl,
      DistributionKept.of_only only rfl rfl rfl rfl rfl⟩
    rw [body, programs, ((taken.steady rfl).trans (steady_loadProgram ..)).settle free]
  · have erases : loadSegment bb.toFin (Fin.ofNat 16 g.toNat) d w = loadErase bb.toFin (setCommand x w) := by
      unfold loadSegment
      exact if_pos (by rw [block]; simpa using state)
    obtain ⟨v, service, job, op, erasing⟩ := loadErase_taken idle' (state.imp block.trans block.trans)
    have erased := loadErase_only bb.toFin (setCommand x w)
    have only := taken.next erased (ps := [.port, .answer, .load, .cat, .slots, .flash, .jobs, .service]) rfl rfl
    have port := erased.keep .answer rfl
    refine ⟨_, v, ?_, service, slot ▸ job, op, erasing, loadMask_loadErase .., (Prod.mk.inj port).1,
      DistributionKept.of_only only rfl rfl rfl rfl rfl⟩
    rw [body, erases, ((taken.steady rfl).trans (steady_loadErase ..)).settle free]
  · have refuses : loadSegment bb.toFin (Fin.ofNat 16 g.toNat) d w = answer .refusedState (bb :: bytes16 (loadMask s bb.toFin)) w := by
      unfold loadSegment
      rw [if_neg (by rw [block]; obtain h | h := state <;> simp [h]), if_neg (by rw [mask, old]; simp), mask, loadPayload_byte]
    rw [body, refuses, settle_answered free]

end Sys2Proof.Machine
end

section
/-! SUPPORT. LOADING ENDS: LOAD END judges the manifest of its copy and starts the verifies, LOAD ABORT empties the slot. -/

namespace Sys2Proof.Machine

variable {s t : State} {p : Params} {b : Block}

/-! ## LOAD END (R67, R184, R185) -/

theorem loadEndBody_open (unfrozen : s.cat.frozen = false) (loading : s.cat.stagingState = .loading)
    (closed : s.cat.procedure = .none) {m : Manifest} (manifest : loadedManifest s.port.load = some m) : loadEndBody s =
      if ofFamily s (loadedKey s.port.load m) && activeVersion s < (loadedKey s.port.load m).version then
        loadEndStart (loadedKey s.port.load m) m s
      else answer .badImage [0, 2] s := by
  unfold loadEndBody
  rw [if_neg (by simp [unfrozen]), if_neg (by simp [loading, closed])]
  simp only [manifest]

/-- The staging slot with the loaded key (R67, R184). -/
def keyLoaded (k : Key) (m : Manifest) (s : State) : State :=
  updateStaging (fun r => { r.unuseAbove m.count with key := some k, count := some m.count }) s

/-- The work of LOAD END at its first block (R185). -/
def loadEndFirst (k : Key) (m : Manifest) : LoadEndWork :=
  { key := k, count := m.count, length := m.length, image := m.image, running := 0xFFFFFFFF, at_ := 0 }

theorem loadEndStart_eq (k : Key) (m : Manifest) (s : State) :
    loadEndStart k m s = loadEndVerify (loadEndFirst k m) (keyLoaded k m s) := rfl

theorem stagingRec_keyLoaded (k : Key) (m : Manifest) (s : State) : stagingRec (keyLoaded k m s) =
    { (stagingRec s).unuseAbove m.count with key := some k, count := some m.count } := stagingRec_setSlot ..

/-- Block 0 is never above the block count (R47). -/
theorem stagingBlock_keyLoaded (k : Key) (m : Manifest) (s : State) : stagingBlock (keyLoaded k m s) 0 = stagingBlock s 0 := by
  unfold stagingBlock
  rw [stagingRec_keyLoaded]
  simp [SlotRecord.unuseAbove, mapVecIdx]

/-- The verify of block 0, as it is handed over (R185). -/
theorem loadEndVerify_first {k : Key} {m : Manifest} (filling : stagingBlock s 0 = .filling) :
    loadEndVerify (loadEndFirst k m) s = submit .host (.verifyBlock .host (stagingSlot s) 0 (.manifest k) none)
      (blockEvent .verifySubmitted 0 (setCommand (.loadEnd (loadEndFirst k m)) s)) := by
  have first : (Fin.ofNat 256 (loadEndFirst k m).at_ : Block) = 0 := rfl
  unfold loadEndVerify
  rw [first]
  exact if_pos (by simp [filling])

/-- The first verify of LOAD END stands in service at the end of its event (R22, R185). -/
theorem loadEndStart_settled {k : Key} {m : Manifest} (free : NotProtected s) (idle : SequencerIdle s)
    (filling : stagingBlock s 0 = .filling) (before : State) :
    let t := settle before (loadEndStart k m s)
    ∃ v, t.flash.service = some v ∧ v.job = .verifyBlock .host (stagingSlot s) 0 (.manifest k) none ∧
      (stagingRec t).key = some k ∧ (stagingRec t).count = some m.count ∧ stagingBlock t 0 = .verifying ∧
      t.cat.stagingState = s.cat.stagingState ∧ t.port.state = s.port.state := by
  let loaded : State := keyLoaded k m s
  let begun : State := blockEvent .verifySubmitted 0 (setCommand (.loadEnd (loadEndFirst k m)) loaded)
  let job : Job := .verifyBlock .host (stagingSlot loaded) 0 (.manifest k) none
  have keyed : Only [.cat, .slots] s loaded := updateStaging_only ..
  have toBegun : Only [.cat, .slots, .port, .answer] s begun :=
    (keyed.next (setCommand_only ..) (ps := [.cat, .slots, .port, .answer]) rfl rfl).next (blockEvent_only ..) rfl rfl
  have state : stagingBlock loaded 0 = .filling := (stagingBlock_keyLoaded k m s).trans filling
  have starts : loadEndStart k m s = submit .host job begun := (loadEndStart_eq k m s).trans (loadEndVerify_first state)
  have idle' : SequencerIdle begun := by
    unfold SequencerIdle
    rwa [toBegun.flash rfl]
  have free' : NotProtected (submit .host job begun) := (toBegun.free rfl free).submit nofun
  have watch := settle_onlyNotice free' before
  have only := (submit_onlyParts .host job begun).next watch rfl rfl
    (ps := [.flash, .jobs, .service, .line, .queue, .notice])
  have slot : stagingRec begun = (stagingRec loaded).setState 0 .verifying := by
    have before_ : (stagingRec (setCommand (.loadEnd (loadEndFirst k m)) loaded)).blocks[(0 : Block)] = .filling := state
    rw [show stagingRec begun = _ from stagingRec_blockEvent .., before_]
    rfl
  rw [starts]
  refine ⟨takeJob begun job, ?_, ?_, ?_, ?_, ?_, ?_, ?_⟩
  · rw [watch.service rfl, (submit_of_idle idle' .host job).1]
  · exact congrArg (fun x => Job.verifyBlock .host x 0 (.manifest k) none) (keyed.stagingSlot rfl)
  · rw [only.stagingRec rfl rfl, slot, show stagingRec loaded = _ from stagingRec_keyLoaded ..]
    rfl
  · rw [only.stagingRec rfl rfl, slot, show stagingRec loaded = _ from stagingRec_keyLoaded ..]
    rfl
  · rw [only.stagingBlock rfl rfl]
    unfold stagingBlock
    rw [slot]
    simp [SlotRecord.setState]
  · rw [only.stagingState rfl, toBegun.stagingState rfl]
  · rw [only.port rfl, show begun.port = _ from (blockEvent_only .verifySubmitted 0 _).port rfl]
    have port : loaded.port = s.port := keyed.port rfl
    exact (congrArg HostPort.state port : loaded.port.state = s.port.state)

/-! ## LOAD ABORT (R68, R187) -/

/-- The staging slot emptied, and the load record with it (R68). -/
def loadAborted (s : State) : State :=
  answer .ok [] (setLoad .cleared (updateStaging (fun r => r.unknowing.keyless) (setStagingState .empty s)))

theorem loadAbortBody_of_noTarget (loading : s.cat.stagingState = .loading) (closed : s.cat.procedure = .none)
    (noTarget : s.cat.target = none) : loadAbortBody s = loadAborted s := by
  have target : (loadAborted s).cat.target = none := by
    have only : Only [.cat, .stagingState, .slots, .port, .load, .answer] s (loadAborted s) :=
      (((setStagingState_only .empty s).next (updateStaging_only ..) (ps := [.cat, .stagingState, .slots]) rfl rfl).next
        (setLoad_only ..) (ps := [.cat, .stagingState, .slots, .port, .load]) rfl rfl).next (answer_only ..) rfl rfl
    exact (only.target rfl).trans noTarget
  unfold loadAbortBody
  rw [if_pos (by simp [loading, closed])]
  exact judgeTarget_of_none target

theorem stagingRec_loadAborted (s : State) : stagingRec (loadAborted s) = (stagingRec s).unknowing.keyless := stagingRec_setSlot ..

theorem activeRec_loadAborted (s : State) : activeRec (loadAborted s) = activeRec s := activeRec_setSlot ..

/-- Settles O56: the refusals of LOAD END, its first verify, and LOAD ABORT. -/
theorem loadingEnds : Obligations.LoadingEnds := by
  unfold Obligations.LoadingEnds
  intro s more ready free loading closed
  let p : Params := ⟨[], more⟩
  let w : State := frameTaken p s
  have cat : w.cat = s.cat := frameTaken_cat p s
  have load : w.port.load = s.port.load := frameTaken_load p s
  have family (k : Key) : ofFamily w k = ofFamily s k := by unfold ofFamily; rw [frameTaken_startUp]
  have version : activeVersion w = activeVersion s := activeVersion_frameTaken p s
  have answered {r : ResultCode} {payload : List Byte} (body : loadEndBody w = answer r payload w) :
      exec (.loadEnd p) s = .next (answer r payload w) := by
    rw [exec_loadEnd ready rfl, body, settle_answered free]
  refine ⟨fun frozen => answered ?_, fun unfrozen none_ => answered ?_, fun m unfrozen manifest => ?_, fun noTarget => ?_⟩
  · exact if_pos (by rw [cat]; exact frozen)
  · unfold loadEndBody
    rw [if_neg (by rw [cat]; simp [unfrozen]), if_neg (by rw [cat]; simp [loading, closed])]
    simp only [load, none_]
  · have open_ := loadEndBody_open (s := w) (by rwa [cat]) (by rwa [cat]) (by rwa [cat]) (by rw [load]; exact manifest)
    rw [load, family, version] at open_
    refine ⟨fun wrong => answered ?_, fun own newer filling idle => ?_⟩
    · rw [open_]
      refine if_neg ?_
      obtain foreign | old := wrong
      · simp [foreign]
      · simpa using fun _ => old
    · have runs : exec (.loadEnd p) s = .next (settle s (loadEndStart (loadedKey s.port.load m) m w)) := by
        rw [exec_loadEnd ready rfl, open_, if_pos (by simp [own, newer])]
      obtain ⟨v, service, job, key, count, verifying, state, port⟩ := loadEndStart_settled (k := loadedKey s.port.load m) (m := m)
        (notProtected_frameTaken free p) (idle_frameTaken idle p) ((stagingBlock_frameTaken p s 0).trans filling) s
      refine ⟨_, v, runs, service, job.trans ?_, key, count, verifying, state.trans (by rw [cat]; exact loading), port⟩
      rw [(frameTaken_only p s).stagingSlot rfl]
  · have runs : exec (.loadAbort p) s = .next (settle s (loadAborted w)) := by
      rw [exec_loadAbort ready rfl, loadAbortBody_of_noTarget (by rwa [cat]) (by rwa [cat]) (by rwa [cat])]
    have only : Only [.cat, .stagingState, .slots, .port, .load, .answer] w (loadAborted w) :=
      (((setStagingState_only .empty w).next (updateStaging_only ..) (ps := [.cat, .stagingState, .slots]) rfl rfl).next
        (setLoad_only ..) (ps := [.cat, .stagingState, .slots, .port, .load]) rfl rfl).next (answer_only ..) rfl rfl
    have watch := settle_onlyNotice (only.free rfl (notProtected_frameTaken free p)) s
    have slot : stagingRec (settle s (loadAborted w)) = (stagingRec w).unknowing.keyless :=
      (watch.stagingRec rfl rfl).trans (stagingRec_loadAborted w)
    refine ⟨_, runs, ?_, by rw [slot]; rfl, by rw [slot]; rfl, fun b => ?_, by rw [watch.port rfl]; rfl, ?_, ?_⟩
    · rw [watch.stagingState rfl]
      exact (updateStaging_only ..).stagingState rfl
    · unfold stagingBlock
      rw [slot]
      exact unknowing_blocks (stagingRec w) b
    · unfold Answered
      rw [watch.port rfl]
      exact answered_answer ..
    · rw [watch.activeRec rfl rfl, activeRec_loadAborted, (frameTaken_only p s).activeRec rfl rfl]

end Sys2Proof.Machine
end

section
/-! SUPPORT. PUBLISH, HOLD AND RESUME: the RELEASE of an image, and the gate of the fetch engine as the host closes and opens it. -/

namespace Sys2Proof.Machine

variable {s t u : State} {p : Params} {i j : Fin 4}

theorem exec_publish (ready : PortRuns s) (right : p.bytes.length = 1) :
    exec (.publish p) s = .next (settle s (publishBody p.bytes (frameTaken p s))) := by
  change execPublish p s = _
  unfold execPublish conclude
  rw [hostCommand_carriedOut ready.1 (.inl ready.2) right]

theorem exec_hold (ready : PortRuns s) (right : p.bytes.length = 0) : exec (.hold p) s = .next (holdBody (frameTaken p s)) := by
  change execHold p s = _
  unfold execHold proceed
  rw [hostCommand_carriedOut ready.1 (.inl ready.2) right]

theorem exec_resume (ready : PortRuns s) (right : p.bytes.length = 0) : exec (.resume p) s = .next (resumeBody (frameTaken p s)) := by
  change execResume p s = _
  unfold execResume proceed
  rw [hostCommand_carriedOut ready.1 (.inl ready.2) right]

/-! ## PUBLISH (R188) -/

/-- PUBLISH in a slot state that it announces, or in another (R188). -/
theorem publishBody_role {roleByte : Byte} {role : Role} (named : roleParam roleByte = some role) (s : State) :
    (publishable s role = false → publishBody [roleByte] s = answer .refusedState [] s) ∧
    ∀ k, publishable s role = true → (slotRec s (roleSlot s role)).key = some k →
      publishBody [roleByte] s = publishKey k ((slotRec s (roleSlot s role)).count.getD 0) s := by
  have named : roleParam (byteAt [roleByte] 0) = some role := named
  refine ⟨fun hidden => ?_, fun k shown key => ?_⟩
  · unfold publishBody
    simp only [named, hidden]
  · unfold publishBody
    simp only [named, shown, key]

/-- The key of a role's slot is one the station holds (R56). -/
theorem roleKey_held {role : Role} {k : Key} (key : (slotRec s (roleSlot s role)).key = some k) : k ∈ heldKeys s := by
  unfold heldKeys
  cases role with
  | active => simp [show (activeRec s).key = some k from key]
  | staging => simp [show (stagingRec s).key = some k from key]

/-- The RELEASE of a key that the station holds, on a link that takes it (R77, R188). -/
theorem publishKey_accepted {k : Key} (held : k ∈ heldKeys s) (sends : linkSends s.line.link = true)
    (room : classCount s.line.queue 0 = 0) (count : Nat) : publishKey k count s = setCommand .publish { s with
      line := { s.line with queue := s.line.queue ++ [TxEntry.mk (.release k (BitVec.ofNat 8 count)) .catalogue 0 false true] } } := by
  have accepted : txAnswer s.line (.release k (BitVec.ofNat 8 count)) = .accepted := by
    unfold txAnswer
    rw [if_neg (by simp [sends])]
    exact if_pos (by simp [frameClass, room, reservation])
  have queued := txSubmit_of_accepted accepted .catalogue (by simp [frameClass])
  have submitted : txSubmit (.release k (BitVec.ofNat 8 count)) .catalogue s = { s with line := { s.line with
      queue := s.line.queue ++ [TxEntry.mk (.release k (BitVec.ofNat 8 count)) .catalogue 0 false true] } } := by
    rw [← queued]
    unfold txSubmit
    rw [if_pos accepted]
  unfold publishKey
  simp only [accepted, submitted]
  exact judge_of_held held

theorem publishKey_noLink (sends : linkSends s.line.link = false) (k : Key) (count : Nat) :
    publishKey k count s = answer .refusedState [linkCode s.line.link] s := by
  have noLink : txAnswer s.line (.release k (BitVec.ofNat 8 count)) = .noLink := by
    unfold txAnswer
    exact if_pos (by simp [sends])
  unfold publishKey
  simp only [noLink]

/-! ## HOLD (R128) -/

/-- What the closing of the gate keeps: the transmit queue only loses entries off the line, a context keeps its state and tries,
and no ASK is queued anew (R128). -/
structure Holding (s t : State) : Prop where
  from_ : ∀ e ∈ t.line.queue, e ∈ s.line.queue
  keeps : ∀ e ∈ s.line.queue, e.onLine = true → e ∈ t.line.queue
  ctx : ∀ i, (ctxOf t i).state = (ctxOf s i).state ∧ (ctxOf t i).tries = (ctxOf s i).tries
  queued : ∀ i, (ctxOf t i).askQueued = true → (ctxOf s i).askQueued = true

theorem Holding.refl (s : State) : Holding s s := ⟨fun _ => id, fun _ he _ => he, fun _ => ⟨rfl, rfl⟩, fun _ => id⟩

theorem Holding.trans (h : Holding s t) (k : Holding t u) : Holding s u :=
  ⟨fun e he => h.from_ e (k.from_ e he), fun e he on => k.keeps e (h.keeps e he on) on,
    fun i => ⟨(k.ctx i).1.trans (h.ctx i).1, (k.ctx i).2.trans (h.ctx i).2⟩, fun i => h.queued i ∘ k.queued i⟩

theorem holding_answer (r : ResultCode) (payload : List Byte) (s : State) : Holding s (answer r payload s) :=
  ⟨fun _ => id, fun _ he _ => he, fun _ => ⟨rfl, rfl⟩, fun _ => id⟩

theorem holding_txWithdraw (f : TxEntry → Bool) (s : State) : Holding s (txWithdraw f s) :=
  ⟨fun _ he => List.mem_of_mem_filter he, fun _ he on => List.mem_filter.mpr ⟨he, by simp [on]⟩, fun _ => ⟨rfl, rfl⟩, fun _ => id⟩

theorem holding_askCleared (j : Fin 4) (s : State) : Holding s (askCleared j s) := by
  have context (i : Fin 4) : ctxOf (askCleared j s) i = if i = j then { ctxOf s j with askQueued := false } else ctxOf s i := by
    by_cases own : i = j
    · subst own
      rw [if_pos rfl]
      exact setCtx_get ..
    · rw [if_neg own]
      exact ctxOf_setCtx_of_ne own ..
  refine ⟨fun _ => id, fun _ he _ => he, fun i => ?_, fun i queued => ?_⟩
  · rw [context]
    by_cases own : i = j
    · subst own
      rw [if_pos rfl]
      exact ⟨rfl, rfl⟩
    · rw [if_neg own]
      exact ⟨rfl, rfl⟩
  · rw [context] at queued
    by_cases own : i = j
    · rw [if_pos own] at queued
      cases queued
    · rwa [if_neg own] at queued

theorem holding_holdAsk (j : Fin 4) (s : State) : Holding s (holdAsk j s) := by
  have withdrawn := holding_txWithdraw (isAskOf j) s
  unfold holdAsk
  dsimp only
  split
  · split
    · exact withdrawn
    · exact withdrawn.trans (holding_askCleared j _)
  · exact .refl s

theorem holding_foldl (l : List (Fin 4)) (s : State) : Holding s (l.foldl (fun t i => holdAsk i t) s) := by
  induction l generalizing s with
  | nil => exact .refl s
  | cons j js ih => exact (holding_holdAsk j s).trans (ih _)

theorem ctxOf_holdAsk_of_ne (h : i ≠ j) (s : State) : ctxOf (holdAsk j s) i = ctxOf s i := by
  unfold holdAsk
  dsimp only
  split
  · split
    · rfl
    · exact ctxOf_setCtx_of_ne h ..
  · rfl

/-- A context's ASK held: what is left of it in the queue is on the line, and the context knows (R128). -/
structure AskHeld (i : Fin 4) (s t : State) : Prop where
  stays : (ctxOf t i).askQueued = true → ∃ e ∈ t.line.queue, e.owner = .fetch i ∧ e.onLine = true
  only : (ctxOf s i).askQueued = true → ∀ e ∈ t.line.queue, e.owner = .fetch i → e.onLine = true

theorem AskHeld.then (h : AskHeld i s t) (k : Holding t u) : AskHeld i s u := by
  refine ⟨fun queued => ?_, fun queued e he => h.only queued e (k.from_ e he)⟩
  obtain ⟨e, he, owner, on⟩ := h.stays (k.queued i queued)
  exact ⟨e, k.keeps e he on, owner, on⟩

theorem askHeld_holdAsk (asking : (ctxOf s i).state = .asking) : AskHeld i s (holdAsk i s) := by
  by_cases queued : (ctxOf s i).askQueued = true
  · have only : ∀ e ∈ (txWithdraw (isAskOf i) s).line.queue, e.owner = .fetch i → e.onLine = true := by
      intro e he owner
      simpa [isAskOf, owner] using (List.mem_filter.mp he).2
    unfold holdAsk
    rw [if_pos (by simp [asking, queued])]
    dsimp only
    split
    · rename_i onLine
      obtain ⟨e, he, all⟩ := List.any_eq_true.mp onLine
      simp only [isAskOf, Bool.and_eq_true, decide_eq_true_eq] at all
      exact ⟨fun _ => ⟨e, he, all.1.1, all.2⟩, fun _ => only⟩
    · refine ⟨fun again => ?_, fun _ => only⟩
      have cleared : ctxOf (askCleared i (txWithdraw (isAskOf i) s)) i = { ctxOf s i with askQueued := false } := setCtx_get ..
      rw [cleared] at again
      cases again
  · have same : holdAsk i s = s := if_neg (by simp [queued])
    rw [same]
    exact ⟨fun again => absurd again queued, fun again => absurd again queued⟩

theorem askHeld_closeGate (asking : (ctxOf s i).state = .asking) : AskHeld i s (closeGate s) := by
  have fold (l : List (Fin 4)) (own : i ∈ l) {s : State} (asking : (ctxOf s i).state = .asking) :
      AskHeld i s (l.foldl (fun t i => holdAsk i t) s) := by
    induction l generalizing s with
    | nil => exact absurd own List.not_mem_nil
    | cons j js ih =>
      rw [List.foldl_cons]
      by_cases same : i = j
      · subst same
        exact (askHeld_holdAsk asking).then (holding_foldl js _)
      · have kept : ctxOf (holdAsk j s) i = ctxOf s i := ctxOf_holdAsk_of_ne same s
        obtain ⟨stays, only⟩ := ih ((List.mem_cons.mp own).resolve_left same) (s := holdAsk j s) (by rwa [kept])
        exact ⟨stays, fun queued => only (by rwa [kept])⟩
  exact fold ctxIds (by fin_cases i <;> decide) asking

/-- Settles O57: PUBLISH by the slot and the link, HOLD by the gate's closing, RESUME by its opening. -/
theorem publishAndHold : Obligations.PublishAndHold := by
  unfold Obligations.PublishAndHold
  intro s more ready free
  refine ⟨fun roleByte role named => ?_, ?_, ?_⟩
  · let p : Params := ⟨[roleByte], more⟩
    let w : State := frameTaken p s
    have taken := frameTaken_onlyAnswer p s
    have cat : w.cat = s.cat := frameTaken_cat p s
    have line : w.line = s.line := frameTaken_line p s
    have shown : publishable w role = publishable s role := by unfold publishable; rw [cat]
    have slot : slotRec w (roleSlot w role) = slotRec s (roleSlot s role) := by
      unfold roleSlot stagingSlot
      rw [taken.slots rfl, cat]
    obtain ⟨hidden, announces⟩ := publishBody_role named w
    rw [shown, slot] at announces
    rw [shown] at hidden
    refine ⟨fun other => ?_, fun k image key => ⟨fun silent => ?_, fun sends room => ?_⟩⟩
    · rw [exec_publish ready rfl, show publishBody _ _ = _ from hidden other, settle_answered free]
    · rw [exec_publish ready rfl, show publishBody _ _ = _ from announces k image key,
        publishKey_noLink (s := w) (by rwa [line]), line, settle_answered free]
    · let count : Nat := (slotRec s (roleSlot s role)).count.getD 0
      let entry : TxEntry := TxEntry.mk (.release k (BitVec.ofNat 8 count)) .catalogue 0 false true
      let queued : State := { w with line := { w.line with queue := w.line.queue ++ [entry] } }
      have held : k ∈ heldKeys w := roleKey_held (role := role) (by rw [slot]; exact key)
      have published : publishKey k count w = setCommand .publish queued :=
        publishKey_accepted held (by rwa [line]) (by rwa [line]) count
      have only : Only [.line, .queue, .port, .answer] s (setCommand .publish queued) :=
        (taken.next (only_queue _ w) (ps := [.line, .queue, .port, .answer]) rfl rfl).andThen (setCommand_only ..) rfl
      refine ⟨setCommand .publish queued, ?_, rfl, rfl, ?_, only.cat rfl, only.flash rfl, only.fetch rfl, only.serve rfl, only.notice rfl⟩
      · rw [exec_publish ready rfl, show publishBody _ _ = _ from announces k image key, published, (only.steady rfl).settle free]
      · have kept : queued.line.queue = s.line.queue ++ [entry] := by rw [← line]
        exact kept
  · let p : Params := ⟨[], more⟩
    let held : State := setHold true (frameTaken p s)
    have toHeld : Only [.port, .answer, .fetch, .hold] s held := (frameTaken_onlyAnswer p s).next (setHold_only ..) rfl rfl
    let closed : State := closeGate held
    let told : State := answer .ok [] closed
    have gate : Only (.port :: .answer :: askParts) held told := (closeGate_only held).next (answer_only ..) rfl rfl
    have holding : Holding closed told := holding_answer ..
    have ctx (i : Fin 4) : ctxOf held i = ctxOf s i := toHeld.ctx rfl i
    refine ⟨told, exec_hold ready rfl, gate.hold rfl, answered_answer .., (gate.flash rfl).trans (toHeld.flash rfl),
      (gate.cat rfl).trans (toHeld.cat rfl), fun i asking => ?_, fun i asking queued => ?_, fun i => ?_⟩
    · have askHeld : AskHeld i held closed := askHeld_closeGate (by rwa [ctx])
      exact (askHeld.then holding).stays
    · have askHeld : AskHeld i held closed := askHeld_closeGate (by rwa [ctx])
      exact (askHeld.then holding).only (by rwa [ctx])
    · have all : Holding held told := (holding_foldl ctxIds held).trans holding
      rw [← ctx i]
      exact all.ctx i
  · let p : Params := ⟨[], more⟩
    let resumed : State := setHold false (frameTaken p s)
    let told : State := answer .ok [] (fetchFollow resumed)
    have follow : Only (.port :: .answer :: openParts) resumed told := (fetchFollow_only resumed).next (answer_only ..) rfl rfl
    exact ⟨told, exec_resume ready rfl, follow.hold rfl, answered_answer .., (follow.events rfl).trans (frameTaken_events p s)⟩

end Sys2Proof.Machine
end

section
/-! SUPPORT. WIPE AND RESTART: what WIPE has done as its event ends, and the reset of RESTART. -/

namespace Sys2Proof.Machine

variable {s t : State} {p : Params} {i : Fin 4}

/-- No report CLEARED answers a command other than PUBLISH (R89, R188). -/
theorem clearedReport_port (other : s.port.command ≠ some .publish) (e : TxEntry) : (clearedReport s e).port = s.port := by
  have unanswered : publishReport 2 s = s := if_neg other
  unfold clearedReport
  split
  · rfl
  · rw [unanswered]
  · split <;> rfl
  · rfl
  · exact (setBuf_only ..).port rfl

theorem clearQueue_port (other : s.port.command ≠ some .publish) : (clearQueue s).port = s.port := by
  have fold (es : List TxEntry) {s : State} (other : s.port.command ≠ some .publish) :
      (es.foldl clearedReport s).port = s.port := by
    induction es generalizing s with
    | nil => rfl
    | cons e es ih =>
      have same := clearedReport_port other e
      rw [List.foldl_cons, ih (by rwa [same]), same]
  unfold clearQueue
  exact fold _ other

theorem quiet_port (other : s.port.command ≠ some .publish) : (quiet s).port = s.port := by
  let told : State := { s with notice := { s.notice with periodicLeft := none, changed := false, owed := false } }
  have cleared : (clearQueue told).port = told.port := clearQueue_port other
  exact ((cancelEntries_only (fun _ => true) (clearQueue told)).port rfl).trans cleared

/-! ## The link (R207) -/

/-- What WIPE does to the link (R87, R207). -/
structure LinkWiped (s t : State) : Prop where
  sending : linkSends s.line.link = true → t.line.link = .listenOnly ∧ t.line.listen = .held ∧ t.serve.queue = []
  listening : s.line.link = .listenOnly → t.line.link = .listenOnly ∧ t.line.listen = .held
  answer : (t.port.state, t.port.answer, t.port.command) = (s.port.state, s.port.answer, s.port.command)
  only : Only ([.line, .link, .timers, .counts, .port, .events] ++ quietParts) s t

theorem linkWiped_enter (command : s.port.command ≠ some .publish) (sends : linkSends s.line.link = true) :
    LinkWiped s (enterListenOnly .held s) := by
  let begun : State := listenBegun .held s
  have quiets := quiet_only begun
  have begins : Only [.line, .link, .timers, .counts, .port, .events] s begun := by
    refine ⟨fun p off => ?_⟩
    cases p <;> first | exact Eq.refl _ | contradiction
  have serve := (quiet_mute (s := begun) rfl).2.1
  rw [enterListenOnly_eq]
  refine ⟨fun _ => ⟨quiets.link rfl, quiets.listen rfl, serve⟩, fun listening => ?_, ?_, begins.next quiets rfl rfl⟩
  · rw [listening] at sends
    cases sends
  · rw [quiet_port (s := begun) command]
    rfl

theorem linkWiped_wipeLink (command : s.port.command ≠ some .publish) : LinkWiped s (wipeLink s) := by
  unfold wipeLink
  split
  · rename_i joining
    exact linkWiped_enter command (by rw [joining]; rfl)
  · rename_i active
    exact linkWiped_enter command (by rw [active]; rfl)
  · rename_i listening
    refine ⟨fun sends => ?_, fun _ => ⟨listening, rfl⟩, rfl, (only_timers s.line.joinLeft .held s).mono rfl⟩
    rw [listening] at sends
    cases sends
  · rename_i joining active listening
    refine ⟨fun sends => ?_, fun listens => absurd listens listening, rfl, .refl ..⟩
    have sending : s.line.link = .joining ∨ s.line.link = .active := by simpa [linkSends] using sends
    exact (sending.elim joining active).elim

/-! ## The start of WIPE (R207, R208) -/

theorem exec_wipe (ready : PortRuns s) (right : p.bytes.length = 0) :
    exec (.wipe p) s = .next (settle s (wipeBegin (setCommand .wipe (frameTaken p s)))) := by
  change execWipe p s = _
  unfold execWipe conclude
  rw [hostCommand_carriedOut ready.1 (.inl ready.2) right]
  rfl

/-- The record jobs withdrawn and the procedure opened, once the link is quiet (R207). -/
def wipeEntered (s : State) : State :=
  withdrawJobs .record (fun _ => true) { s with cat := { s.cat with work := [], procedure := .wipe .drain false } }

theorem wipeOpened_eq (s : State) : wipeOpened s = wipeEntered (wipeLink s) := rfl

theorem wipeEntered_only (s : State) : Only [.cat, .work, .procedure, .flash, .jobs] s (wipeEntered s) := by
  have opened : Only [.cat, .work, .procedure] s { s with cat := { s.cat with work := [], procedure := .wipe .drain false } } := by
    refine ⟨fun p off => ?_⟩
    cases p <;> first | exact Eq.refl _ | contradiction
  exact opened.next (withdrawJobs_only ..) rfl rfl

/-- The parts that WIPE touches after the link. -/
abbrev wipeParts : List Part :=
  [.cat, .work, .procedure, .slots, .activeState, .stagingState, .target, .deferral] ++ releaseParts

theorem wipeCleared_only (s : State) : Only wipeParts (wipeLink s) (wipeCleared s) := by
  have entered := wipeEntered_only (wipeLink s)
  rw [← wipeOpened_eq] at entered
  exact (entered.next (abandon_only _) (ps := wipeParts) rfl rfl).andThen (catEmptied_only _) rfl

theorem sameOp_wipeCleared (command : s.port.command ≠ some .publish) : SameOp s (wipeCleared s) := by
  have link := (linkWiped_wipeLink command).only.sameOp rfl
  have opened : SameOp s (wipeOpened s) := link.trans ((wipeEntered_only (wipeLink s)).sameOp rfl)
  exact (opened.trans (sameOp_abandon _)).trans ((catEmptied_only _).sameOp rfl)

theorem SameOp.recordInService (h : SameOp s t) : recordInService t = recordInService s := by
  unfold SameOp at h
  unfold Machine.recordInService
  cases before : s.flash.service with
  | none =>
    rw [before, Option.map_none, Option.map_eq_none_iff] at h
    rw [h]
  | some v =>
    rw [before] at h
    obtain ⟨w, after, same⟩ := Option.map_eq_some_iff.mp h
    rw [after]
    simp only [(Prod.mk.inj same).1]

theorem procedure_wipeCleared (s : State) : (wipeCleared s).cat.procedure = .wipe .drain false := by
  unfold wipeCleared
  rw [(catEmptied_only _).procedure rfl, (abandon_only _).procedure rfl]
  rfl

theorem work_wipeCleared (s : State) : (wipeCleared s).cat.work = [] := by
  unfold wipeCleared
  rw [(catEmptied_only _).work rfl, (abandon_only _).work rfl]
  rfl

/-- WIPE waits for a record job in service, and else submits its first erase (R208). -/
theorem wipeBegin_steps (command : s.port.command ≠ some .publish) : wipeBegin s =
    if recordInService s then wipeCleared s
    else addWork (.eraseControl (wipeUnit (setProcedure (.wipe (.control 0) false) (wipeCleared s)) 0))
      (setProcedure (.wipe (.control 0) false) (wipeCleared s)) := by
  have next : wipeNext (wipeCleared s) = wipeStep (.control 0) false (wipeCleared s) := by
    unfold wipeNext
    simp only [procedure_wipeCleared, wipeFollowing]
  rw [wipeBegin_eq, (sameOp_wipeCleared command).recordInService, next]
  rfl

/-- What the start of WIPE leaves: the cleared part, and after it only the first erase (R207, R208). -/
structure WipeStarted (s t : State) : Prop where
  procedure : t.cat.procedure = .wipe (if recordInService s then .drain else .control 0) false
  free : NotProtected t
  only : Only [.cat, .procedure, .work, .flash, .jobs, .service] (wipeCleared s) t

/-- The first erase of WIPE added to an empty record work list (R208). -/
theorem controlErase_added (free : NotProtected s) (work : s.cat.work = []) (c : ControlUnit) :
    let t := addWork (.eraseControl c) (setProcedure (.wipe (.control 0) false) s)
    t.cat.procedure = .wipe (.control 0) false ∧ NotProtected t ∧
      Only [.cat, .procedure, .work, .flash, .jobs, .service] s t := by
  have names : WorkNamesNone (setProcedure (.wipe (.control 0) false) s) := by
    unfold WorkNamesNone
    rw [show (setProcedure (.wipe (.control 0) false) s).cat.work = [] from work]
    exact nofun
  have added := addWork_onlyParts (.eraseControl c) (setProcedure (.wipe (.control 0) false) s)
  exact ⟨added.procedure rfl, (addWork_free (s := setProcedure (.wipe (.control 0) false) s) free names rfl).1,
    (setProcedure_only ..).next added rfl rfl⟩

theorem wipeStarted_wipeBegin (command : s.port.command ≠ some .publish) (free : NotProtected s) : WipeStarted s (wipeBegin s) := by
  have free' : NotProtected (wipeCleared s) := (sameOp_wipeCleared command).free free
  rw [wipeBegin_steps command]
  by_cases record : recordInService s = true
  · rw [if_pos record]
    refine ⟨?_, free', .refl ..⟩
    rw [if_pos record]
    exact procedure_wipeCleared s
  · obtain ⟨procedure, started, only⟩ := controlErase_added free' (work_wipeCleared s)
      (wipeUnit (setProcedure (.wipe (.control 0) false) (wipeCleared s)) 0)
    rw [if_neg record]
    refine ⟨?_, started, only⟩
    rw [if_neg record]
    exact procedure

theorem gentle_wipeBegin (command : s.port.command ≠ some .publish) : Gentle s (wipeBegin s) := by
  rw [wipeBegin_steps command]
  exact .ite (fun _ => gentle_wipeCleared s) fun _ =>
    ((gentle_wipeCleared s).then (setProcedure_only ..) rfl).trans (gentle_addWork rfl _)

/-- WIPE leaves no image in the catalogue (R207). -/
theorem wipeCleared_emptied (s : State) : (wipeCleared s).cat.slotA = .cleared ∧ (wipeCleared s).cat.slotB = .cleared ∧
    (wipeCleared s).cat.activeState = .none ∧ (wipeCleared s).cat.stagingState = .empty ∧ (wipeCleared s).cat.target = none :=
  ⟨rfl, rfl, rfl, rfl, rfl⟩

theorem wipeCleared_fetch (s : State) : (∀ i, (ctxOf (wipeCleared s) i).state = .idle) ∧ (wipeCleared s).fetch.deferral = [] := by
  unfold wipeCleared
  refine ⟨fun i => ?_, ?_⟩
  · rw [(catEmptied_only _).ctx rfl i]
    exact abandon_idle _ i
  · rw [(catEmptied_only _).deferral rfl]
    exact abandon_deferral _

/-! ## RESTART (R191) -/

theorem cutShort_mem_portOnly (h : PortOnly s t) (left : Left) : (cutShort left t).mem = (cutShort left s).mem := by
  rw [show t = { s with port := t.port } from h]
  unfold cutShort
  dsimp only
  split <;> rfl

theorem frameTaken_hcsLow (p : Params) (s : State) : (frameTaken p s).port.hcsLow = false := rfl

/-- Settles O58: WIPE's start and the rest of its event, and RESTART's reset. -/
theorem wipeAndRestart : Obligations.WipeAndRestart := by
  unfold Obligations.WipeAndRestart
  intro s more ready free
  refine ⟨?_, fun pins left legal => ?_⟩
  · let p : Params := ⟨[], more⟩
    let w : State := setCommand .wipe (frameTaken p s)
    have taken : Only [.port, .answer] s w := (frameTaken_onlyAnswer p s).trans (setCommand_only ..)
    have other : w.port.command ≠ some .publish := nofun
    have free' : NotProtected w := taken.free rfl free
    obtain ⟨procedure, started, only⟩ := wipeStarted_wipeBegin other free'
    have watch := settle_onlyNotice started s
    have link := linkWiped_wipeLink other
    have cleared := wipeCleared_only w
    have after := only.next watch (ps := [.cat, .procedure, .work, .flash, .jobs, .service, .line, .queue, .notice]) rfl rfl
    obtain ⟨idle, deferral⟩ := wipeCleared_fetch w
    have gentle : Gentle w (wipeBegin w) := gentle_wipeBegin other
    have recordSame : recordInService w = recordInService s := by unfold recordInService; rw [taken.flash rfl]
    obtain ⟨slotA, slotB, activeState, stagingState, target⟩ := wipeCleared_emptied w
    have quiets := link.only
    refine ⟨settle s (wipeBegin w), exec_wipe (p := p) ready rfl, ?_, fun v service => ?_, ?_, ?_, ?_, ?_, ?_, ?_, ?_, fun i => ?_, ?_, fun sends => ?_,
      fun listening => ?_, ?_⟩
    · rw [watch.procedure rfl, procedure, recordSame]
    · obtain ⟨x, after_, job, op⟩ := gentle.busy v ((taken.service rfl).trans service)
      exact ⟨x, (watch.service rfl).trans after_, job, op⟩
    · rw [after.mem rfl, cleared.mem rfl, quiets.mem rfl, taken.mem rfl]
    · exact (show (settle s (wipeBegin w)).cat.slotA = _ from after.slots rfl .a).trans slotA
    · exact (show (settle s (wipeBegin w)).cat.slotB = _ from after.slots rfl .b).trans slotB
    · exact (after.activeState rfl).trans activeState
    · exact (after.stagingState rfl).trans stagingState
    · exact (after.target rfl).trans target
    · rw [after.recorded rfl, cleared.recorded rfl, quiets.recorded rfl, taken.recorded rfl]
    · rw [after.ctx rfl i]
      exact idle i
    · rw [after.deferral rfl]
      exact deferral
    · obtain ⟨listens, held, served⟩ := link.sending (by rw [taken.link rfl]; exact sends)
      exact ⟨(after.link rfl).trans ((cleared.link rfl).trans listens), (after.listen rfl).trans ((cleared.listen rfl).trans held),
        (after.serveQueue rfl).trans ((cleared.serveQueue rfl).trans served)⟩
    · obtain ⟨listens, held⟩ := link.listening (by rw [taken.link rfl]; exact listening)
      exact ⟨(after.link rfl).trans ((cleared.link rfl).trans listens), (after.listen rfl).trans ((cleared.listen rfl).trans held)⟩
    · have port : (settle s (wipeBegin w)).port = (wipeLink w).port := (after.port rfl).trans (cleared.port rfl)
      rw [port]
      obtain ⟨state, rest⟩ := Prod.mk.inj link.answer
      obtain ⟨answer, command⟩ := Prod.mk.inj rest
      exact ⟨state, command, answer⟩
  · let p : Params := ⟨[], more⟩
    let w : State := frameTaken p s
    have taken := frameTaken_only p s
    have runs : exec (.restart p pins left) s = .next (settle s (restartBody pins left w)) := by
      change execRestart p pins left s = _
      unfold execRestart conclude
      rw [if_neg (by simp [legal]), hostCommand_carriedOut ready.1 (.inl ready.2) rfl]
    have pinned : w.pins = s.pins := taken.keep .pins rfl
    rw [runs]
    unfold restartBody
    rw [settle_deviceReset]
    unfold deviceReset
    rw [cutShort_hcsLow, cutShort_pending, frameTaken_hcsLow, cutShort_mem_portOnly (frameTaken_portOnly p s), pinned,
      show w.pending = s.pending from taken.keep .pending rfl]

end Sys2Proof.Machine
end

section
/-! SUPPORT. START-UP: what the start-up reads hand over, what of it the rebuild keeps, and the rebuild of a part with no image. -/

namespace Sys2Proof.Machine

variable {s t : State}

/-! ## The rebuild's frame -/

/-- The parts that the rebuild touches as it goes on from a block. -/
abbrev rebuildParts : List Part := [.cat, .activeState, .stagingState] ++ resumeParts

theorem finishStaging_only (s : State) : Only rebuildParts s (finishStaging s) := by
  have over_ := setRebuild_only .repairs s
  have complete := over_.next (setStagingState_only .complete _) (ps := rebuildParts) rfl rfl
  exact .ite (fun _ => (complete.andThen (raise_only ..) rfl).andThen (tryRebuildEnd_only _) rfl) fun _ => over_.next (tryRebuildEnd_only _) rfl rfl

theorem rebuildFrom_only (role : Role) (from_ : Nat) (s : State) : Only rebuildParts s (rebuildFrom role from_ s) := by
  unfold rebuildFrom
  split
  · exact (submitVerify_only ..).mono rfl
  · cases role with
    | staging => exact finishStaging_only s
    | active =>
      have rated := only_activeState (rebuiltActive s) s
      dsimp only
      split
      · exact rated.next (submitVerify_only ..) rfl rfl
      · exact rated.next (finishStaging_only _) rfl rfl

theorem Only.commitUnit {ps : List Part} (h : Only ps s t) (off : ps.elem .appends = false) :
    t.cat.commitUnit = s.cat.commitUnit := congrArg Prod.fst (h.keep .appends off)

theorem Only.highSeq {ps : List Part} (h : Only ps s t) (off : ps.elem .appends = false) :
    t.cat.highSeq = s.cat.highSeq := congrArg (·.2.2) (h.keep .appends off)

/-! ## What the reads hand over -/

theorem exec_startUpReadsEnd (reading : s.startUp.stage = .reading) (free : s.port.command = none)
    (readable : (readCatalogue s.mem).frozen = false) :
    exec .startUpReadsEnd s = .next (settle s (rebuildFrom .active 0 (readsHandedOver s))) := by
  have noFault : voidedStoreFault (readsHandedOver s) = readsHandedOver s := by
    unfold voidedStoreFault
    rw [show (readsHandedOver s).cat.frozen = false from readable]
  have noAnswer : answerWaiting (readsHandedOver s) = readsHandedOver s := by
    unfold answerWaiting
    rw [show (readsHandedOver s).port.command = none from free]
  change execStartUpReadsEnd s = _
  unfold execStartUpReadsEnd conclude
  rw [if_pos reading, noFault, noAnswer]

theorem readCatalogue_ruling {m : List Host.Cell} {u : CommitUnit} {r : CommitRecord} (ruling : rulingRecord m = some (u, r)) :
    (readCatalogue m).recorded = r ∧ (readCatalogue m).commitUnit = u ∧ (readCatalogue m).highSeq = r.seq ∧
      (readCatalogue m).activeSlot = r.active.getD .b ∧ (readCatalogue m).frozen = false := by
  unfold readCatalogue
  rw [ruling]
  exact ⟨rfl, rfl, rfl, rfl, rfl⟩

/-- A catalogue read from a store without a record. -/
structure Imageless (c : Catalogue) : Prop where
  recorded : c.recorded = .cleared
  activeSlot : c.activeSlot = .b
  stagingState : c.stagingState = .empty
  keyA : c.slotA.key = none
  keyB : c.slotB.key = none

theorem readCatalogue_noRuling {m : List Host.Cell} (ruling : rulingRecord m = none) : Imageless (readCatalogue m) := by
  unfold readCatalogue
  rw [ruling]
  exact ⟨rfl, rfl, rfl, rfl, rfl⟩

theorem readCatalogue_readable {m : List Host.Cell} (voided : voidedUnit m = none) : (readCatalogue m).frozen = false := by
  unfold readCatalogue
  rw [voided]
  exact Bool.and_false _

/-! ## The rebuild without an image -/

theorem nextVerify_of_noKey {role : Role} (key : (slotRec s (roleSlot s role)).key = none) (from_ : Nat) :
    nextVerify s role from_ = none := by
  have noKey : (slotRec s (roleSlot s role)).key.isNone = true := by rw [key]; rfl
  exact if_pos noKey

theorem Imageless.slotRec_key (h : Imageless s.cat) (x : Slot) : (slotRec s x).key = none := by
  cases x with
  | a => exact h.keyA
  | b => exact h.keyB

/-- The part with its re-verify over and no image. -/
def imagelessRebuilt (s : State) : State :=
  { s with
    cat := { s.cat with activeState := .none }
    startUp := { s.startUp with stage := .running, rebuild := .idle } }

theorem finishStaging_of_noRepairs (staging : s.cat.stagingState = .empty) (repairs : s.startUp.repairs = 0) :
    finishStaging s = rebuildEnd (setRebuild .repairs s) := by
  unfold finishStaging
  rw [if_neg (by rw [staging]; simp)]
  exact if_pos (Bool.and_eq_true_iff.mpr ⟨decide_eq_true rfl, decide_eq_true repairs⟩)

/-- Without an image nothing is verified, and the rebuild is over at once (R199, R200, R205). -/
theorem rebuildFrom_imageless (h : Imageless s.cat) (repairs : s.startUp.repairs = 0) :
    rebuildFrom .active 0 s = if s.startUp.faultAddress || s.startUp.faultFamily then imagelessRebuilt s
      else enterJoining (imagelessRebuilt s) := by
  have rated : rebuiltActive s = .none := by
    unfold rebuiltActive
    rw [h.recorded]
    rfl
  let u : State := { s with cat := { s.cat with activeState := .none } }
  have noKeys : Imageless u.cat := ⟨h.recorded, h.activeSlot, h.stagingState, h.keyA, h.keyB⟩
  have noStaging : nextVerify u .staging 0 = none := nextVerify_of_noKey (s := u) (Imageless.slotRec_key (s := u) noKeys _) 0
  have finishes : finishStaging u = rebuildEnd (setRebuild .repairs u) := finishStaging_of_noRepairs h.stagingState repairs
  have noActive : nextVerify s .active 0 = none := nextVerify_of_noKey (h.slotRec_key _) 0
  unfold rebuildFrom
  rw [noActive, rated]
  dsimp only
  rw [noStaging, finishes]
  rfl

/-- The entry to JOINING in an event that ends with it (R84, R86). -/
theorem settle_enterJoining (free : NotProtected s) (b : State) :
    Only (.notice :: joinParts) s (settle b (enterJoining s)) ∧ (settle b (enterJoining s)).line.link = .joining ∧
      (settle b (enterJoining s)).line.joinLeft = some 300 ∧
      (settle b (enterJoining s)).port.events = raiseIn .linkChange (byteDetail 1) s.port.events := by
  let u : State := setLink .joining s
  have follow : Only openParts { u with line := { u.line with joinLeft := some 300, listen := .stopped } } (enterJoining s) :=
    fetchFollow_only _
  have ends := settle_onlyNotice ((frees_enterJoining s).free free) b
  exact ⟨(enterJoining_only s).next ends rfl rfl, (ends.link rfl).trans (follow.link rfl),
    (ends.joinLeft rfl).trans (follow.joinLeft rfl), (ends.events rfl).trans (follow.events rfl)⟩

/-! ## The hand-over -/

/-- Without a configuration fault the rebuild's end leads to JOINING (R6, R14, R205). -/
theorem readsHandedOver_faults (s : State) :
    ((readsHandedOver s).startUp.faultAddress || (readsHandedOver s).startUp.faultFamily) = false ↔
      nodeReading (readNode s.mem) = .configured ∧ legalSource s.startUp.straps.address = true := by
  change ((decide (s.startUp.straps.address = 0) || decide (s.startUp.straps.address = 127)) ||
    decide (nodeReading (readNode s.mem) ≠ .configured)) = false ↔ _
  simp only [legalSource, Bool.or_eq_false_iff, decide_eq_false_iff_not, Bool.and_eq_true, decide_eq_true_eq, ne_eq, not_not]
  exact And.comm

/-- Settles O60: the rebuild and the event's end keep the recorded view; with no image the rebuild is over in the event. -/
theorem startUpReadsHandOver : Obligations.StartUpReadsHandOver := by
  unfold Obligations.StartUpReadsHandOver
  intro s reading free unprotected legal
  refine ⟨fun u r ruling => ?_, fun ruling voided => ?_⟩
  · obtain ⟨recorded, unit, seq, active, readable⟩ := readCatalogue_ruling ruling
    have rebuilt := rebuildFrom_only .active 0 (readsHandedOver s)
    have noWipe : NoWipe (rebuildFrom .active 0 (readsHandedOver s)) :=
      rebuilt.noWipe rfl (fun _ _ => nofun)
    have goes : Only (rebuildParts ++ .notice :: protectedParts) (readsHandedOver s) _ := rebuilt.next (settle_only noWipe s) rfl rfl
    exact ⟨_, exec_startUpReadsEnd reading free readable, (goes.recorded rfl).trans recorded, (goes.commitUnit rfl).trans unit,
      (goes.highSeq rfl).trans seq, (goes.activeSlot rfl).trans active, (goes.frozen rfl).trans readable, goes.mem rfl⟩
  · have none_ := readCatalogue_noRuling ruling
    have offline : s.line.link = .offline := legal.1 (by rw [reading]; simp)
    have runs := exec_startUpReadsEnd reading free (readCatalogue_readable voided)
    rw [rebuildFrom_imageless none_ rfl] at runs
    obtain ⟨w, rebuilt⟩ : ∃ w, w = imagelessRebuilt (readsHandedOver s) := ⟨_, rfl⟩
    have keeps : NotProtected w ∧ w.line = s.line ∧ w.port.events = s.port.events := by
      rw [rebuilt]
      exact ⟨unprotected, rfl, rfl⟩
    have holds : w.startUp.stage = .running ∧ w.cat.activeState = .none ∧ w.cat.stagingState = .empty ∧
        w.cat.activeSlot = .b ∧ w.cat.recorded = .cleared ∧ w.startUp.reading = nodeReading (readNode s.mem) := by
      rw [rebuilt]
      exact ⟨rfl, rfl, none_.stagingState, none_.activeSlot, none_.recorded, rfl⟩
    obtain ⟨unprotected, line, events⟩ := keeps
    rw [← rebuilt] at runs
    by_cases clean : nodeReading (readNode s.mem) = .configured ∧ legalSource s.startUp.straps.address = true
    · rw [if_neg (by rw [(readsHandedOver_faults s).mpr clean]; simp)] at runs
      obtain ⟨goes, link, timer, raised⟩ := settle_enterJoining unprotected s
      obtain ⟨stage, active, staging, slot, recorded, node⟩ := holds
      refine ⟨_, runs, (goes.stage rfl).trans stage, (goes.activeState rfl).trans active, (goes.stagingState rfl).trans staging,
        (goes.activeSlot rfl).trans slot, (goes.recorded rfl).trans recorded,
        (congrArg StartUp.reading (goes.startUp rfl)).trans node, ?_⟩
      rw [if_pos clean, link, timer, raised, events]
      exact ⟨rfl, rfl, rfl⟩
    · have faulty := mt (readsHandedOver_faults s).mp clean
      rw [if_pos (Bool.of_not_eq_false faulty)] at runs
      have mute : Mute w := show linkSends w.line.link = false by rw [line, offline]; rfl
      rw [settle_mute unprotected mute] at runs
      obtain ⟨stage, active, staging, slot, recorded, node⟩ := holds
      refine ⟨w, runs, stage, active, staging, slot, recorded, node, ?_⟩
      rw [if_neg clean]
      exact ⟨line, events⟩

end Sys2Proof.Machine
end

section
/-! SUPPORT. REPORTS: what the report of an entry decided at the end of its attempt brings about in the host port, in the fetch
engine and in the serve engine (R76, R100, R113, R141, R146, R188). -/

namespace Sys2Proof.Machine

variable {s t : State} {i : Fin 4} {k : Key} {b : Block} {m : Mask} {f : ServeEntry} {before after : List TxEntry} {e : TxEntry}

/-! ## The event -/

/-- The event of an attempt's end that decides its entry, where its report leaves this station's NOTICE as it is (R76). -/
theorem exec_attemptEnd_decided (h : OnLineAmong s before after e) (sends : linkSends s.line.link = true) (free : NotProtected s)
    {echoed : Bool} (decides : echoed = true ∨ e.attempts = 2 ∧ s.line.echoMiss < 15)
    (reported : afterAttempt e.owner (attemptReport echoed e (attemptGone echoed before after s)) = t)
    (steady : Steady (attemptGone echoed before after s) t) : exec (.attemptEnd echoed) s = .next t := by
  rw [exec_attemptEnd h, endAttempt_decided h sends decides, reported,
    ((steady_attemptGone echoed before after s).trans steady).settle free]

theorem attemptGone_framesSent (before after : List TxEntry) (s : State) :
    (attemptGone true before after s).line.framesSent = count16 s.line.framesSent := rfl

theorem attemptGone_echoMiss (before after : List TxEntry) (sends : linkSends s.line.link = true) :
    (attemptGone true before after s).line.echoMiss = 0 := if_pos sends

/-! ## RELEASE -/

theorem publishReport_eq (publishing : s.port.command = some .publish) (code : Byte) :
    publishReport code s = answer .ok [code] s := if_pos publishing

theorem exec_attemptEnd_release (h : OnLineAmong s before after e) (sends : linkSends s.line.link = true) (free : NotProtected s)
    {echoed : Bool} (decides : echoed = true ∨ e.attempts = 2 ∧ s.line.echoMiss < 15) (owner : e.owner = .catalogue)
    (publishing : s.port.command = some .publish) :
    exec (.attemptEnd echoed) s = .next (answer .ok [if echoed then 0 else 1] (attemptGone echoed before after s)) := by
  refine exec_attemptEnd_decided h sends free decides ?_ ((answer_only ..).steady rfl)
  rw [← publishReport_eq (s := attemptGone echoed before after s) publishing]
  simp only [afterAttempt, attemptReport, owner]

/-! ## ASK -/

theorem markAsked_peers (a : Addr) (s : State) : (markAsked a s).notice.peers = if a = 0 then s.notice.peers else
    s.notice.peers.map (fun p => if p.addr = a then { p with asked := 0 } else p) := by
  unfold markAsked
  split <;> rfl

/-- A context whose ASK has been sent (R113). -/
def Ctx.claim (c : Ctx) : Ctx := { c with state := .claiming, askQueued := false, claimLeft := 120 }

theorem askSent_eq (asking : (ctxOf s i).state = .asking) : askSent i s = setCtx i (ctxOf s i).claim s := if_pos asking

/-- A context whose ASK has not been sent, before its next try (R113). -/
def Ctx.unheard (c : Ctx) : Ctx := { c with server := none, askQueued := false }

theorem askUnsent_eq (asking : (ctxOf s i).state = .asking) :
    askUnsent i s = enterAsking i (setCtx i (ctxOf s i).unheard s) := if_pos asking

/-- A sent ASK: its context is in CLAIMING and the peer asked has its age reset (R100, R113). -/
theorem askSent_claims (asking : (ctxOf s i).state = .asking) (target : Addr) :
    ctxOf (fetchFollow (askSent i (markAsked target s))) i = (ctxOf s i).claim ∧
      (fetchFollow (askSent i (markAsked target s))).notice.peers = (markAsked target s).notice.peers := by
  have same : ctxOf (markAsked target s) i = ctxOf s i := (markAsked_only ..).ctx rfl i
  have claimed := setCtx_get i (ctxOf s i).claim (markAsked target s)
  rw [askSent_eq (by rw [same, asking]), same]
  refine ⟨(ctxOf_fetchFollow ?_ ?_).trans claimed, ((fetchFollow_only _).peers rfl).trans ((setCtx_only ..).peers rfl)⟩
  · rw [claimed]
    exact nofun
  · rw [claimed]
    exact nofun

/-- An unsent ASK: its context asks again without a server (R110, R113). -/
theorem askUnsent_asks (asking : (ctxOf s i).state = .asking) (tries : (ctxOf s i).tries < 5) :
    (ctxOf (fetchFollow (askUnsent i s)) i).state = .asking ∧
      (ctxOf (fetchFollow (askUnsent i s)) i).tries = (ctxOf s i).tries + 1 ∧
      (ctxOf (fetchFollow (askUnsent i s)) i).server = none ∧
      (fetchFollow (askUnsent i s)).notice.peers = s.notice.peers := by
  have unheard := setCtx_get i (ctxOf s i).unheard s
  have few : (ctxOf (setCtx i (ctxOf s i).unheard s) i).tries < 5 := by
    rw [unheard]
    exact tries
  have entered := ctxOf_enterAsking few
  rw [unheard] at entered
  rw [askUnsent_eq asking]
  have goes := fetchFollow_goesOn (s := enterAsking i (setCtx i (ctxOf s i).unheard s)) (i := i) (by rw [entered]; exact nofun)
  unfold CtxGoesOn at goes
  rw [entered] at goes
  rw [goes]
  exact ⟨rfl, rfl, rfl, ((fetchFollow_only _).peers rfl).trans (((enterAsking_onlyAsks few).peers rfl).trans
    ((setCtx_only ..).peers rfl))⟩

theorem attemptReport_ask (echoed : Bool) {target : Addr} (owner : e.owner = .fetch i) (frame : e.frame = .ask target k b m)
    (live : e.live = true) (s : State) : afterAttempt e.owner (attemptReport echoed e s) =
      fetchFollow (if echoed then askSent i (markAsked target s) else askUnsent i s) := by
  unfold afterAttempt attemptReport
  simp only [owner, frame, if_pos live]
  cases echoed <;> rfl

theorem steady_askUnsent (i : Fin 4) (s : State) : Steady s (askUnsent i s) :=
  .ite (fun _ => ((setCtx_only ..).steady rfl).trans (steady_enterAsking i _)) fun _ => .refl s

theorem exec_attemptEnd_ask (h : OnLineAmong s before after e) (sends : linkSends s.line.link = true) (free : NotProtected s)
    {echoed : Bool} (decides : echoed = true ∨ e.attempts = 2 ∧ s.line.echoMiss < 15) {target : Addr} (owner : e.owner = .fetch i)
    (frame : e.frame = .ask target k b m) (live : e.live = true) :
    exec (.attemptEnd echoed) s = .next (fetchFollow (if echoed then askSent i (markAsked target (attemptGone echoed before after s))
      else askUnsent i (attemptGone echoed before after s))) := by
  refine exec_attemptEnd_decided h sends free decides (attemptReport_ask echoed owner frame live _) (Steady.trans (.ite (fun _ => ?_)
    fun _ => steady_askUnsent i _) (steady_fetchFollow _))
  exact ((markAsked_only target _).steady rfl).then (askSent_only i _) rfl

/-! ## The serve queue -/

theorem ServeEntry.isFor_iff : f.isFor k b = true ↔ f.key = k ∧ f.block = b := by
  simp [ServeEntry.isFor]

theorem findEntry_isFor (found : findEntry s k b = some f) : f.isFor k b = true :=
  List.find?_some (p := fun e : ServeEntry => e.isFor k b) found

theorem sendingEntry_state (sending : sendingEntry s = some f) : f.state = .sending :=
  of_decide_eq_true (List.find?_some (p := fun x : ServeEntry => decide (x.state = .sending)) sending)

/-- What a test finds in the queue after a change of one entry that leaves the test's outcome (R133). -/
theorem find_updateEntry {p q : ServeEntry → Bool} {g : ServeEntry → ServeEntry}
    (outcome : ∀ x ∈ s.serve.queue, p (if x.isFor k b then g x else x) = q x) :
    (updateEntry k b g s).serve.queue.find? p = (s.serve.queue.find? q).map (fun x => if x.isFor k b then g x else x) := by
  have queue : (updateEntry k b g s).serve.queue = s.serve.queue.map (fun x => if x.isFor k b then g x else x) := rfl
  rw [queue, List.find?_map]
  congr 1
  generalize s.serve.queue = l at outcome
  induction l with
  | nil => rfl
  | cons x xs ih =>
    have here : (p ∘ fun x => if x.isFor k b then g x else x) x = q x := outcome x List.mem_cons_self
    rw [List.find?_cons, List.find?_cons, here, ih fun y hy => outcome y (List.mem_cons_of_mem _ hy)]

theorem findEntry_removeEntry (k : Key) (b : Block) (s : State) : findEntry (offerNext (removeEntry k b s)) k b = none := by
  have gone : (k, b) ∉ servedBlocks (offerNext (removeEntry k b s)) := by
    rw [servedBlocks_offerNext]
    intro h
    obtain ⟨x, hx, same⟩ := List.mem_map.mp h
    obtain ⟨key, block⟩ := Prod.mk.inj same
    have other := (List.mem_filter.mp hx).2
    rw [ServeEntry.isFor_iff.mpr ⟨key, block⟩] at other
    exact Bool.false_ne_true other
  refine List.find?_eq_none.mpr fun x hx here => gone ?_
  obtain ⟨key, block⟩ := ServeEntry.isFor_iff.mp here
  exact List.mem_map.mpr ⟨x, hx, by rw [key, block]⟩

theorem removeEntry_shorter (found : findEntry s k b = some f) :
    (offerNext (removeEntry k b s)).serve.queue.length < s.serve.queue.length := by
  have length : (offerNext (removeEntry k b s)).serve.queue.length = (removeEntry k b s).serve.queue.length := by
    have same := congrArg List.length (servedBlocks_offerNext (removeEntry k b s))
    unfold servedBlocks at same
    rwa [List.length_map, List.length_map] at same
  rw [length]
  exact List.length_filter_lt_length_iff_exists.mpr ⟨f, List.mem_of_find?_eq_some found, by rw [findEntry_isFor found]; exact nofun⟩

/-! ## OFFER -/

theorem lowestFrom_zero {g : Seg} (here : hasSeg m g = true) (lower : ∀ h < g, hasSeg m h = false) :
    lowestFrom m 0 = g.val := by
  have first : (List.range 16).find? (fun j => decide (0 ≤ j) && m.getLsbD j) = some g.val := by
    refine List.find?_range_eq_some.mpr ⟨?_, List.mem_range.mpr g.isLt, fun j hj => ?_⟩
    · rw [decide_eq_true (Nat.zero_le _)]
      exact here
    · have off := lower ⟨j, by omega⟩ hj
      simpa [hasSeg] using off
  unfold lowestFrom
  rw [first]
  rfl

/-- The entry for a key and block is SENDING, with a mask and no OFFER in the queue (R141). -/
def SendsFor (k : Key) (b : Block) (m : Mask) (s : State) (n : ServeEntry) : Prop :=
  sendingEntry s = some n ∧ findEntry s k b = some n ∧ n.offerQueued = false ∧ n.mask = m

theorem SendsFor.serves {n : ServeEntry} (h : SendsFor k b m s n) : n.key = k ∧ n.block = b :=
  ServeEntry.isFor_iff.mp (findEntry_isFor h.2.1)

theorem SendsFor.congr {n : ServeEntry} (h : SendsFor k b m s n) (queue : t.serve.queue = s.serve.queue) :
    SendsFor k b m t n := by
  unfold SendsFor sendingEntry findEntry at *
  rwa [queue]

/-- The next index of the SENDING entry moves on (R143). -/
theorem SendsFor.moveOn {n : ServeEntry} (h : SendsFor k b m s n) (g : ServeEntry → Nat) :
    SendsFor k b m (updateEntry k b (fun x => { x with nextIndex := g x }) s) { n with nextIndex := g n } := by
  obtain ⟨sending, found, offer, mask⟩ := h
  have changed : (if n.isFor k b then { n with nextIndex := g n } else n) = { n with nextIndex := g n } :=
    if_pos (findEntry_isFor found)
  refine ⟨?_, ?_, offer, mask⟩
  · unfold sendingEntry
    rw [find_updateEntry (q := fun x => x.state = .sending) fun x _ => by split <;> rfl,
      show s.serve.queue.find? _ = some n from sending, Option.map_some, changed]
  · unfold findEntry
    rw [find_updateEntry (q := fun x => x.isFor k b) fun x _ => by split <;> rfl,
      show s.serve.queue.find? _ = some n from found, Option.map_some, changed]

/-- The entry of an OFFER that has been sent, as it enters SENDING (R141, R143). -/
def ServeEntry.begin (f : ServeEntry) : ServeEntry :=
  { f with state := .sending, offerQueued := false, nextIndex := lowestFrom f.mask 0 }

theorem SendsFor.begin (found : findEntry s k b = some f) (alone : ∀ x ∈ s.serve.queue, x.state ≠ .sending) :
    SendsFor k b f.mask (updateEntry k b ServeEntry.begin s) f.begin := by
  have changed : (if f.isFor k b then f.begin else f) = f.begin := if_pos (findEntry_isFor found)
  refine ⟨?_, ?_, rfl, rfl⟩
  · unfold sendingEntry
    rw [find_updateEntry (q := fun x => x.isFor k b) fun x hx => ?_,
      show s.serve.queue.find? _ = some f from found, Option.map_some, changed]
    split
    · rename_i here
      exact here.symm
    · rename_i other
      rw [Bool.eq_false_iff.mpr other]
      exact decide_eq_false (alone x hx)
  · unfold findEntry
    rw [find_updateEntry (q := fun x => x.isFor k b) fun x _ => by split <;> rfl,
      show s.serve.queue.find? _ = some f from found, Option.map_some, changed]

/-- The block is VERIFIED in the slot that holds its key (R135, R144). -/
def Servable (k : Key) (b : Block) (s : State) (y : Slot) : Prop :=
  holderOf s k = some y ∧ (slotRec s y).blocks[b] = .verified

theorem Servable.congr {y : Slot} (h : Servable k b s y) (cat : t.cat = s.cat) : Servable k b t y := by
  have record (x : Slot) : slotRec t x = slotRec s x := by
    cases x
    · exact congrArg Catalogue.slotA cat
    · exact congrArg Catalogue.slotB cat
  unfold Servable holderOf activeRec stagingRec stagingSlot at *
  rw [record, record, record, cat]
  exact h

/-- The next segment of the SENDING entry is read into a free buffer (R143). -/
def readNext (y : Slot) (j : OutBufId) (n : ServeEntry) (s : State) : State :=
  submit .serve (.readSegment y n.block (Fin.ofNat 16 n.nextIndex) j)
    (updateEntry n.key n.block (fun x => { x with nextIndex := lowestFrom x.mask (n.nextIndex + 1) })
      (setBuf j (.reading n.key n.block (Fin.ofNat 16 n.nextIndex) true) s))

theorem fillBuffer_reads {n : ServeEntry} {y : Slot} {j : OutBufId} (h : SendsFor k b m s n) (left : n.nextIndex < 16)
    (servable : Servable k b s y) (buffer : freeBuffer s = some j) : fillBuffer s = readNext y j n s := by
  obtain ⟨key, block⟩ := h.serves
  obtain ⟨sending, _⟩ := h
  obtain ⟨holder, verified⟩ := servable
  subst key block
  unfold fillBuffer
  simp only [sending, buffer, if_pos left, holder]
  exact if_pos verified

/-- The SENDING entry reads its first segment into OB0, and its block stays where it is (R143). -/
structure ReadsFirst (k : Key) (b : Block) (m : Mask) (y : Slot) (g : Seg) (s : State) : Prop where
  sends : ∃ n, SendsFor k b m s n
  servable : Servable k b s y
  first : s.serve.ob0 = .reading k b g true

/-- A read begun leaves the SENDING entry and the other buffer (R143). -/
theorem readNext_keeps {n : ServeEntry} (h : SendsFor k b m s n) (y : Slot) (j : OutBufId) :
    (∃ x, SendsFor k b m (readNext y j n s) x) ∧ (readNext y j n s).cat = s.cat ∧
      (readNext y j n s).serve.ob0 = (setBuf j (.reading k b (Fin.ofNat 16 n.nextIndex) true) s).serve.ob0 := by
  obtain ⟨rfl, rfl⟩ := h.serves
  let read : State := setBuf j (.reading n.key n.block (Fin.ofNat 16 n.nextIndex) true) s
  have same : read.serve.queue = s.serve.queue := (setBuf_only ..).serveQueue rfl
  have moved := (h.congr same).moveOn fun x => lowestFrom x.mask (n.nextIndex + 1)
  have updated := updateEntry_only n.key n.block (fun x => { x with nextIndex := lowestFrom x.mask (n.nextIndex + 1) }) read
  have submitted : Only _ _ (readNext y j n s) := submit_onlyParts ..
  exact ⟨⟨_, moved.congr (submitted.serveQueue rfl)⟩,
    ((submitted.cat rfl).trans (updated.cat rfl)).trans ((setBuf_only ..).cat rfl),
    (submitted.buf rfl .ob0).trans (updated.buf rfl .ob0)⟩

theorem fillBuffer_readsFirst {n : ServeEntry} {y : Slot} {g : Seg} (h : SendsFor k b m s n) (next : n.nextIndex = g.val)
    (servable : Servable k b s y) (free : s.serve.ob0 = .free) : ReadsFirst k b m y g (fillBuffer s) := by
  have buffer : freeBuffer s = some .ob0 := if_pos free
  obtain ⟨sends, cat, first⟩ := readNext_keeps h y .ob0
  rw [fillBuffer_reads h (by omega) servable buffer]
  refine ⟨sends, servable.congr cat, first.trans ?_⟩
  change OutBuf.reading k b (Fin.ofNat 16 n.nextIndex) true = _
  rw [next, Fin.ofNat_val_eq_self]

theorem ReadsFirst.fillBuffer {y : Slot} {g : Seg} (h : ReadsFirst k b m y g s) : ReadsFirst k b m y g (fillBuffer s) := by
  obtain ⟨⟨n, sends⟩, servable, first⟩ := h
  have busy : s.serve.ob0 ≠ .free := by
    rw [first]
    exact nofun
  by_cases left : n.nextIndex < 16
  · by_cases other : s.serve.ob1 = .free
    · have buffer : freeBuffer s = some .ob1 := (if_neg busy).trans (if_pos other)
      obtain ⟨sendsOn, cat, kept⟩ := readNext_keeps sends y .ob1
      rw [fillBuffer_reads sends left servable buffer]
      exact ⟨sendsOn, servable.congr cat, kept.trans first⟩
    · have full : freeBuffer s = none := (if_neg busy).trans (if_neg other)
      have same : Machine.fillBuffer s = s := by
        unfold Machine.fillBuffer
        rw [full]
        cases sendingEntry s <;> rfl
      rw [same]
      exact ⟨⟨n, sends⟩, servable, first⟩
  · have done : ServeDone s := by
      unfold ServeDone
      rw [sends.1]
      exact Nat.le_of_not_lt left
    rw [fillBuffer_of_done done]
    exact ⟨⟨n, sends⟩, servable, first⟩

/-- A serve that reads a segment goes on (R146). -/
theorem ReadsFirst.endServe {y : Slot} {g : Seg} (h : ReadsFirst k b m y g s) : endServe s = s := by
  obtain ⟨⟨n, sends⟩, _, first⟩ := h
  obtain ⟨key, block⟩ := sends.serves
  have held : s.serve.ob0.heldFor n.key n.block = true := by
    rw [first, key, block]
    simp [OutBuf.heldFor]
  unfold Machine.endServe
  rw [sends.1]
  exact if_neg (by simp [held])

/-- An OFFER sent: its entry is SENDING and its lowest segment is read into OB0 (R141, R143). -/
theorem startSending_reads {y : Slot} {g : Seg} (found : findEntry s k b = some f)
    (alone : ∀ x ∈ s.serve.queue, x.state ≠ .sending) (servable : Servable k b s y) (here : hasSeg f.mask g = true)
    (lower : ∀ h < g, hasSeg f.mask h = false) (free : s.serve.ob0 = .free) :
    ReadsFirst k b f.mask y g (startSending k b s) := by
  have begun := SendsFor.begin found alone
  have reads := (fillBuffer_readsFirst (s := updateEntry k b ServeEntry.begin s) begun (lowestFrom_zero here lower)
    (servable.congr rfl) free).fillBuffer
  have eq : startSending k b s = endServe (fillBuffer (fillBuffer (updateEntry k b ServeEntry.begin s))) := rfl
  rw [eq, reads.endServe]
  exact reads

theorem exec_attemptEnd_offer (h : OnLineAmong s before after e) (sends : linkSends s.line.link = true) (free : NotProtected s)
    {echoed : Bool} (decides : echoed = true ∨ e.attempts = 2 ∧ s.line.echoMiss < 15) (owner : e.owner = .serveOffer)
    (frame : e.frame = .offer k b m) (live : e.live = true) :
    exec (.attemptEnd echoed) s = .next (offerReport echoed k b (attemptGone echoed before after s)) := by
  refine exec_attemptEnd_decided h sends free decides ?_ (.ite (fun _ => ?_) fun _ => ?_)
  · unfold afterAttempt attemptReport
    simp only [owner, frame, if_pos live]
  · exact ((updateEntry_only ..).steady rfl).trans (steady_serveAdvance _)
  · exact ((removeEntry_only ..).steady rfl).then (offerNext_only _) rfl

/-! ## SEGMENT -/

/-- The buffer of a SEGMENT freed, and the frame counted where it was sent (R146). -/
def segmentGone (sent : Bool) (j : OutBufId) (s : State) : State :=
  if sent then { setBuf j .free s with serve := { (setBuf j .free s).serve with served := count16 s.serve.served } }
  else setBuf j .free s

theorem segmentReport_eq (sent : Bool) (j : OutBufId) (s : State) :
    segmentReport sent j s = serveAdvance (segmentGone sent j s) := by
  cases sent <;> cases j <;> rfl

theorem segmentGone_only (sent : Bool) (j : OutBufId) (s : State) :
    Only [.serve, .bufs, .served] s (segmentGone sent j s) := by
  have freed := (setBuf_only j .free s).mono (ps := [.serve, .bufs, .served]) rfl
  exact .ite (fun _ => (freed.andThen (only_served (count16 s.serve.served) _ _) rfl)) fun _ => freed

theorem bufOf_setBuf_of_ne {j x : OutBufId} (other : x ≠ j) (v : OutBuf) (s : State) : bufOf (setBuf j v s) x = bufOf s x := by
  cases j <;> cases x <;> first | rfl | exact absurd rfl other

theorem segmentGone_keeps (sent : Bool) (j : OutBufId) (s : State) :
    (segmentGone sent j s).serve.queue = s.serve.queue ∧ bufOf (segmentGone sent j s) j = .free ∧
      (∀ x, x ≠ j → bufOf (segmentGone sent j s) x = bufOf s x) ∧
      (segmentGone sent j s).serve.served = (if sent then count16 s.serve.served else s.serve.served) := by
  have bufs (x : OutBufId) : bufOf (segmentGone sent j s) x = bufOf (setBuf j .free s) x := by
    cases sent
    · rfl
    · cases x <;> rfl
  have freed := setBuf_only j .free s
  refine ⟨?_, (bufs j).trans (setBuf_get ..), fun x other => (bufs x).trans (bufOf_setBuf_of_ne other ..), ?_⟩
  · cases sent <;> exact freed.serveQueue rfl
  · cases sent
    · exact freed.servedCount rfl
    · rfl

/-- A serve without a segment left ends as its last buffer is freed (R146). -/
theorem endServe_ends (sending : sendingEntry s = some f) (over_ : 16 ≤ f.nextIndex)
    (none_ : ∀ j, (bufOf s j).heldFor f.key f.block = false) : endServe s = offerNext (removeEntry f.key f.block s) := by
  have first : s.serve.ob0.heldFor f.key f.block = false := none_ .ob0
  have second : s.serve.ob1.heldFor f.key f.block = false := none_ .ob1
  unfold endServe
  rw [sending]
  exact if_pos (by simp [over_, first, second])

theorem segmentReport_ends {sent : Bool} {j : OutBufId} (sending : sendingEntry s = some f) (over_ : 16 ≤ f.nextIndex)
    (others : ∀ x, x ≠ j → (bufOf s x).heldFor f.key f.block = false) :
    (segmentReport sent j s).serve.served = (if sent then count16 s.serve.served else s.serve.served) ∧
      bufOf (segmentReport sent j s) j = .free ∧ findEntry (segmentReport sent j s) f.key f.block = none := by
  obtain ⟨queue, freed, kept, served⟩ := segmentGone_keeps sent j s
  have same : sendingEntry (segmentGone sent j s) = some f := by
    unfold sendingEntry
    rwa [queue]
  have done : ServeDone (segmentGone sent j s) := by
    unfold ServeDone
    rw [same]
    exact over_
  have unheld (x : OutBufId) : (bufOf (segmentGone sent j s) x).heldFor f.key f.block = false := by
    by_cases here : x = j
    · rw [here, freed]
      rfl
    · rw [kept x here]
      exact others x here
  rw [segmentReport_eq, serveAdvance_of_done done, endServe_ends same over_ unheld]
  have removed := (removeEntry_only f.key f.block (segmentGone sent j s)).next (offerNext_only _) (ps := [.line, .queue, .serve, .serveQueue])
    rfl rfl
  exact ⟨(removed.servedCount rfl).trans served, (removed.buf rfl j).trans freed, findEntry_removeEntry ..⟩

theorem exec_attemptEnd_segment (h : OnLineAmong s before after e) (sends : linkSends s.line.link = true) (free : NotProtected s)
    {echoed : Bool} (decides : echoed = true ∨ e.attempts = 2 ∧ s.line.echoMiss < 15) {j : OutBufId} (owner : e.owner = .serveBuffer j) :
    exec (.attemptEnd echoed) s = .next (segmentReport echoed j (attemptGone echoed before after s)) := by
  refine exec_attemptEnd_decided h sends free decides ?_ ?_
  · unfold afterAttempt attemptReport
    simp only [owner]
  · rw [segmentReport_eq]
    exact ((segmentGone_only ..).steady rfl).trans (steady_serveAdvance _)

/-! ## The obligation -/

/-- What a decided entry finds in the part beside the line (R76). -/
theorem attemptGone_only (echoed : Bool) (before after : List TxEntry) (s : State) :
    Only [.line, .queue, .counts] s (attemptGone echoed before after s) := by
  refine ⟨fun p off => ?_⟩
  cases echoed <;> cases p <;> first | exact Eq.refl _ | contradiction

/-- Settles O32: the report by the owner of the entry that the attempt has decided. -/
theorem releaseReportAnswersPublish : Obligations.ReleaseReportAnswersPublish := by
  unfold Obligations.ReleaseReportAnswersPublish
  intro s before after e queue onLine others sends free
  have h : OnLineAmong s before after e := ⟨queue, onLine, others⟩
  have gone (echoed : Bool) := attemptGone_only echoed before after s
  refine ⟨fun owner publishing => ⟨?_, fun last few => ?_⟩,
    fun i target k b m owner frame live asking => ⟨?_, fun last few tries => ?_⟩,
    fun k b m f owner frame live found alone => ⟨fun y g holder verified here lower buffer => ?_, fun last few => ?_⟩,
    fun i f owner sending over_ unheld => ⟨?_, fun last live few => ?_⟩⟩
  · rw [exec_attemptEnd_release h sends free (.inl rfl) owner publishing, attemptGone_eq sends (.inl rfl)]
    rfl
  · rw [exec_attemptEnd_release h sends free (.inr ⟨last, few⟩) owner publishing, attemptGone_eq sends (.inr few)]
    rfl
  · have same := (gone true).ctx rfl i
    obtain ⟨claimed, peers⟩ := askSent_claims (s := attemptGone true before after s) (by rw [same, asking]) target
    have run : exec (.attemptEnd true) s = .next (fetchFollow (askSent i (markAsked target (attemptGone true before after s)))) :=
      exec_attemptEnd_ask h sends free (.inl rfl) owner frame live
    have follow := (((markAsked_only target (attemptGone true before after s)).next (askSent_only i _) (ps := .notice :: .peers :: openParts)
      rfl rfl).andThen (fetchFollow_only _) rfl)
    exact ⟨_, run, claimed.trans (congrArg Ctx.claim same), peers.trans (markAsked_peers ..),
      (follow.framesSent rfl).trans (attemptGone_framesSent ..), (follow.echoMiss rfl).trans (attemptGone_echoMiss _ _ sends)⟩
  · have same := (gone false).ctx rfl i
    obtain ⟨state, tried, server, peers⟩ := askUnsent_asks (s := attemptGone false before after s) (by rw [same, asking])
      (by rwa [same])
    have run : exec (.attemptEnd false) s = .next (fetchFollow (askUnsent i (attemptGone false before after s))) :=
      exec_attemptEnd_ask h sends free (.inr ⟨last, few⟩) owner frame live
    exact ⟨_, run, state, by rw [← same]; exact tried, server, peers⟩
  · obtain ⟨⟨n, sendsOn, foundOn, offer, mask⟩, _, first⟩ := startSending_reads (s := attemptGone true before after s) (y := y)
      found alone ⟨holder, verified⟩ here lower buffer
    have run : exec (.attemptEnd true) s = .next (startSending k b (attemptGone true before after s)) :=
      exec_attemptEnd_offer h sends free (.inl rfl) owner frame live
    exact ⟨_, n, run, foundOn, sendingEntry_state sendsOn, offer, mask, first,
      ((startSending_only k b _).framesSent rfl).trans (attemptGone_framesSent ..)⟩
  · exact ⟨_, exec_attemptEnd_offer h sends free (.inr ⟨last, few⟩) owner frame live, findEntry_removeEntry ..,
      removeEntry_shorter (s := attemptGone false before after s) found,
      ((removeEntry_only k b _).next (offerNext_only _) (ps := [.line, .queue, .serve, .serveQueue]) rfl rfl).servedCount rfl⟩
  · obtain ⟨served, freed, ended⟩ := segmentReport_ends (sent := true) (s := attemptGone true before after s) sending over_ unheld
    exact ⟨_, exec_attemptEnd_segment h sends free (.inl rfl) owner, served, freed, ended⟩
  · obtain ⟨served, freed, ended⟩ := segmentReport_ends (sent := false) (s := attemptGone false before after s) sending over_ unheld
    exact ⟨_, exec_attemptEnd_segment h sends free (.inr ⟨last, few⟩) owner, served, freed, ended⟩

end Sys2Proof.Machine
end
